-- ==== Sys2Proof/Word.lean ====
section
/-! DEFINITION. The fixed widths of the block's values (spec 00_scope.md R6, R7): every value is an
unsigned number of a stated width, bit 0 least significant. -/

namespace Sys2Proof

/-- The 32-bit message word, timing value or filter mask (R6: `MSG_W`, `TIMING_W`, `FILTER_W`). -/
abbrev Word := BitVec 32

/-- One byte lane of a message word (R41), and the 8-bit data fields taken whole (R72, R76). -/
abbrev Byte := BitVec 8

/-- A MIDI channel number, 0 to 15 (R71). -/
abbrev Channel := BitVec 4

/-- A program number, 0 to 127 (R24, R73; `PROG_W` of R6). -/
abbrev Program := BitVec 7

end Sys2Proof
end

