-- ==== Sys2Proof/Machine/Operands.lean ====
section
/-! DEFINITION. The values that are assembled from an instruction's fields rather than taken from it as they stand
(spec 30_encoding.md R74, R75). Every other operand is a field of the instruction. -/

namespace Sys2Proof.Machine

/-- The 14-bit pitch reassembly (R74): `value[13:7] = msb`, `value[6:0] = lsb`; unsigned, no centre subtracted. -/
def pitchValue (lsb msb : BitVec 7) : BitVec 14 := msb ++ lsb

/-- `CLOCKS_PER_BEAT` (R6): "6 MIDI clock pulses per MIDI beat, a fixed protocol constant". -/
def clocksPerBeat : BitVec 15 := 6

/-- `position_in_clocks = beats * 6` (R75): at most 24570, so the product never wraps in 15 bits. -/
def songClocks (beats : BitVec 12) : BitVec 15 := beats.setWidth 15 * clocksPerBeat

end Sys2Proof.Machine
end

