-- ==== Sys2Proof/Syntax.lean ====
section
/-! DEFINITION. The instructions: one constructor per mnemonic of spec/opcode_table.json, its fields the row's
fields (spec 30_encoding.md R63 to R70) and, for the eighteen `DECODE` kinds, the timing operand of the command
(R60; notes/assumptions/3.md). The seven `UNHANDLED` rows are the one constructor `unhandled`, whose status byte
tells which row it is (notes/assumptions/4.md). -/

namespace Sys2Proof

/-- An instruction is one command of the block (R2), decoded: the first eighteen are a `DECODE` of a message of
that kind, the last is `SETFILTERS`. -/
inductive Instr where
  /-- `NOTEOFF` (R100), format `CV2`. -/
  | noteOff (channel : Channel) (note velocity : Byte) (timing : Word)
  /-- `NOTEON` (R101), format `CV2`. -/
  | noteOn (channel : Channel) (note velocity : Byte) (timing : Word)
  /-- `KEYPRESSURE` (R102), format `CV2`. -/
  | keyPressure (channel : Channel) (note pressure : Byte) (timing : Word)
  /-- `CONTROLCHANGE` (R103), format `CV2`. -/
  | controlChange (channel : Channel) (controller value : Byte) (timing : Word)
  /-- `PROGRAMCHANGE` (R104), format `PC`. -/
  | programChange (channel : Channel) (program : Program) (timing : Word)
  /-- `CHANNELPRESSURE` (R105), format `CP`; decode-only. -/
  | channelPressure (channel : Channel) (timing : Word)
  /-- `PITCHWHEEL` (R106), format `PB`: the two 7-bit halves as the word carries them. -/
  | pitchWheel (channel : Channel) (lsb msb : BitVec 7) (timing : Word)
  /-- `SONGPOSITION` (R130), format `SP`; decode-only. -/
  | songPosition (beats : BitVec 12) (timing : Word)
  /-- `SONGSELECT` (R131), format `SS`; decode-only. -/
  | songSelect (song : Byte) (timing : Word)
  /-- `TUNEREQUEST` (R132), format `SYS0`; decode-only. -/
  | tuneRequest (timing : Word)
  /-- `MIDICLOCK` (R133), format `SYS0`; decode-only. -/
  | midiClock (timing : Word)
  /-- `MIDITICK` (R134), format `SYS0`; decode-only. -/
  | midiTick (timing : Word)
  /-- `SONGSTART` (R135), format `SYS0`; decode-only. -/
  | songStart (timing : Word)
  /-- `SONGCONTINUE` (R136), format `SYS0`; decode-only. -/
  | songContinue (timing : Word)
  /-- `SONGSTOP` (R137), format `SYS0`; decode-only. -/
  | songStop (timing : Word)
  /-- `SENSING` (R138), format `SYS0`; decode-only. -/
  | sensing (timing : Word)
  /-- `RESET` (R139), format `SYS0`: the Reset message, not the hardware reset. -/
  | reset (timing : Word)
  /-- `UNHANDLED` (R140), format `UNH`: the status byte that no other format takes. -/
  | unhandled (status : Byte) (timing : Word)
  /-- `SETFILTERS` (R160): the new mask. Its command's timing field is ignored (R161), so it is no operand. -/
  | setFilters (mask : Word)
  deriving DecidableEq, Repr

end Sys2Proof
end

