-- ==== Sys2Proof/WellFormed.lean ====
section
/-! DEFINITION. Which terms of `Instr` stand for a command of the block. The field widths of `Instr` leave one
check: the status byte of `unhandled` must be one that no other format takes (spec 30_encoding.md R70). -/

namespace Sys2Proof

/-- The status bytes of format `UNH` (R70, R140): bit 7 clear, or one of the six unlisted 0xF codes. -/
def unhandledStatus (status : Byte) : Bool :=
  !status.getLsbD 7
    || [0xF0#8, 0xF1#8, 0xF4#8, 0xF5#8, 0xF7#8, 0xFD#8].contains status

/-- A term of `Instr` that some command decodes to. -/
def Instr.wellFormed : Instr → Bool
  | .unhandled status _ => unhandledStatus status
  | .noteOff _ _ _ _ => true
  | .noteOn _ _ _ _ => true
  | .keyPressure _ _ _ _ => true
  | .controlChange _ _ _ _ => true
  | .programChange _ _ _ => true
  | .channelPressure _ _ => true
  | .pitchWheel _ _ _ _ => true
  | .songPosition _ _ => true
  | .songSelect _ _ => true
  | .tuneRequest _ => true
  | .midiClock _ => true
  | .midiTick _ => true
  | .songStart _ => true
  | .songContinue _ => true
  | .songStop _ => true
  | .sensing _ => true
  | .reset _ => true
  | .setFilters _ => true

end Sys2Proof
end

