-- ==== Sys2Proof/Decode.lean ====
section
/-! DEFINITION. From commands to instructions and back (spec 30_encoding.md). A command is taken apart here and
nowhere else: the machine sees only `Instr`. Decoding a command never refuses (R81, R142: "every value in the
input domain maps to a defined (possibly no-op) outcome"). The one refusal, by name, is of a number with a bit
that the 65 bits of a command do not have. -/

namespace Sys2Proof

/-! ## Commands (R60, R12) -/

/-- A command of the block (R2, R12). -/
inductive Command where
  | decode (message timing : Word)
  | setFilters (mask : Word)
  deriving DecidableEq, Repr

/-- The field `op` of a command (R60): 0 = `DECODE`, 1 = `SETFILTERS`. -/
def Command.op : Command → Bool
  | .decode _ _ => false
  | .setFilters _ => true

/-- The field `word` of a command (R60). -/
def Command.word : Command → Word
  | .decode message _ => message
  | .setFilters mask => mask

/-- The field `timing` of a command (R60); `SETFILTERS` ignores it, and its canonical command has 0 there. -/
def Command.timing : Command → Word
  | .decode _ timing => timing
  | .setFilters _ => 0

/-- The command that three fields present together (R60). -/
def Command.ofFields (op : Bool) (word timing : Word) : Command :=
  if op then .setFilters word else .decode word timing

/-! ## Fields of the message word (R61, R62, R71 to R76) -/

/-- `status = message[7:0]` (R61). -/
def statusField (message : Word) : Byte := message.extractLsb' 0 8

/-- `channel = message[3:0]` (R71). -/
def channelField (message : Word) : Channel := message.extractLsb' 0 4

/-- Data byte 1, `message[15:8]`, taken whole (R72, R76). -/
def data1Field (message : Word) : Byte := message.extractLsb' 8 8

/-- Data byte 2, `message[23:16]`, taken whole (R72). -/
def data2Field (message : Word) : Byte := message.extractLsb' 16 8

/-- `program = message[14:8]` (R73), and the pitch bend's `lsb` (R66). -/
def low7Field (message : Word) : BitVec 7 := message.extractLsb' 8 7

/-- The pitch bend's `msb = message[22:16]` (R66, R74). -/
def high7Field (message : Word) : BitVec 7 := message.extractLsb' 16 7

/-- `beats = message[19:8]` (R75). -/
def beatsField (message : Word) : BitVec 12 := message.extractLsb' 8 12

/-! ## Classification (R77) -/

/-- The eighteen message kinds (R12). -/
inductive Kind where
  | noteOff | noteOn | keyPressure | controlChange | programChange | channelPressure | pitchWheel
  | songPosition | songSelect | tuneRequest | midiClock | midiTick | songStart | songContinue | songStop
  | sensing | reset | unhandled
  deriving DecidableEq, Repr

/-- The second stage of R77: the full low byte against the system message codes. -/
def classifySystem (message : Word) : Kind :=
  let code := message &&& 0xFF#32
  if code = 0xF2#32 then .songPosition
  else if code = 0xF3#32 then .songSelect
  else if code = 0xF6#32 then .tuneRequest
  else if code = 0xF8#32 then .midiClock
  else if code = 0xF9#32 then .midiTick
  else if code = 0xFA#32 then .songStart
  else if code = 0xFB#32 then .songContinue
  else if code = 0xFC#32 then .songStop
  else if code = 0xFE#32 then .sensing
  else if code = 0xFF#32 then .reset
  else .unhandled

/-- `classify` (R77): first `message & 0xF0` against the channel-voice class codes, then the full low byte. -/
def classify (message : Word) : Kind :=
  let cls := message &&& 0xF0#32
  if cls = 0x80#32 then .noteOff
  else if cls = 0x90#32 then .noteOn
  else if cls = 0xA0#32 then .keyPressure
  else if cls = 0xB0#32 then .controlChange
  else if cls = 0xC0#32 then .programChange
  else if cls = 0xD0#32 then .channelPressure
  else if cls = 0xE0#32 then .pitchWheel
  else classifySystem message

/-! ## The decoder -/

/-- The instruction of a `DECODE(message, timing)` command: its kind, with the fields of the kind's format
(R63 to R70). -/
def decodeMessage (message timing : Word) : Instr :=
  match classify message with
  | .noteOff => .noteOff (channelField message) (data1Field message) (data2Field message) timing
  | .noteOn => .noteOn (channelField message) (data1Field message) (data2Field message) timing
  | .keyPressure => .keyPressure (channelField message) (data1Field message) (data2Field message) timing
  | .controlChange => .controlChange (channelField message) (data1Field message) (data2Field message) timing
  | .programChange => .programChange (channelField message) (low7Field message) timing
  | .channelPressure => .channelPressure (channelField message) timing
  | .pitchWheel => .pitchWheel (channelField message) (low7Field message) (high7Field message) timing
  | .songPosition => .songPosition (beatsField message) timing
  | .songSelect => .songSelect (data1Field message) timing
  | .tuneRequest => .tuneRequest timing
  | .midiClock => .midiClock timing
  | .midiTick => .midiTick timing
  | .songStart => .songStart timing
  | .songContinue => .songContinue timing
  | .songStop => .songStop timing
  | .sensing => .sensing timing
  | .reset => .reset timing
  | .unhandled => .unhandled (statusField message) timing

/-- The instruction of a command. Total: the block refuses no command (R13, R81). -/
def decode : Command → Instr
  | .decode message timing => decodeMessage message timing
  | .setFilters mask => .setFilters mask

/-! ## A command as one number (notes/assumptions/5.md)

Bits 31:0 are `word`, bit 32 is `op` (the encoding string of the `SETFILTERS` row is "cmd_op followed by
cmd_word[31:0]"), bits 64:33 are `timing`. -/

/-- Why a number is no command. -/
inductive DecodeError where
  /-- It has a bit set above bit 64: the command port has no such wire (R60). -/
  | widerThanACommand
  deriving DecidableEq, Repr

/-- The command whose 65 bits are `bits`. -/
def Command.ofBits (bits : Nat) : Command :=
  .ofFields (bits.testBit 32) (BitVec.ofNat 32 bits) (BitVec.ofNat 32 (bits / 2 ^ 33))

/-- The 65 bits of a command as a number. -/
def Command.toBits (c : Command) : Nat :=
  c.word.toNat + (if c.op then 2 ^ 32 else 0) + c.timing.toNat * 2 ^ 33

/-- Decode a number, or say by name why it is no command. -/
def decodeBits (bits : Nat) : Except DecodeError Instr :=
  if bits < 2 ^ 65 then .ok (decode (.ofBits bits)) else .error .widerThanACommand

/-- The instruction the decoder reads from a command whose low `nbits` bits are `w` and whose other bits are 0. -/
def decodeTableWord (nbits w : Nat) : Option Instr :=
  (decodeBits (w % 2 ^ nbits)).toOption

/-! ## The encoder (R63 to R70, R85)

The canonical word of an instruction: every ignored bit zero. Written as the formats' tables are, from bit 31 down. -/

/-- A `CV2` word (R63). -/
def wordCV2 (cls : BitVec 4) (channel : Channel) (first second : Byte) : Word :=
  0#8 ++ second ++ first ++ (cls ++ channel)

/-- A `PC` word (R64). -/
def wordPC (channel : Channel) (program : Program) : Word :=
  0#17 ++ program ++ (0xC#4 ++ channel)

/-- A `CP` word (R65). -/
def wordCP (channel : Channel) : Word :=
  0#24 ++ (0xD#4 ++ channel)

/-- A `PB` word (R66). -/
def wordPB (channel : Channel) (lsb msb : BitVec 7) : Word :=
  0#9 ++ msb ++ 0#1 ++ lsb ++ (0xE#4 ++ channel)

/-- An `SP` word (R67). -/
def wordSP (beats : BitVec 12) : Word :=
  0#12 ++ beats ++ 0xF2#8

/-- An `SS` word (R68). -/
def wordSS (song : Byte) : Word :=
  0#16 ++ song ++ 0xF3#8

/-- A `SYS0` or `UNH` word (R69, R70): a status byte and no data. -/
def wordStatus (status : Byte) : Word :=
  0#24 ++ status

/-- The canonical command of an instruction (R85). -/
def encode : Instr → Command
  | .noteOff channel note velocity timing => .decode (wordCV2 0x8 channel note velocity) timing
  | .noteOn channel note velocity timing => .decode (wordCV2 0x9 channel note velocity) timing
  | .keyPressure channel note pressure timing => .decode (wordCV2 0xA channel note pressure) timing
  | .controlChange channel controller value timing => .decode (wordCV2 0xB channel controller value) timing
  | .programChange channel program timing => .decode (wordPC channel program) timing
  | .channelPressure channel timing => .decode (wordCP channel) timing
  | .pitchWheel channel lsb msb timing => .decode (wordPB channel lsb msb) timing
  | .songPosition beats timing => .decode (wordSP beats) timing
  | .songSelect song timing => .decode (wordSS song) timing
  | .tuneRequest timing => .decode (wordStatus 0xF6) timing
  | .midiClock timing => .decode (wordStatus 0xF8) timing
  | .midiTick timing => .decode (wordStatus 0xF9) timing
  | .songStart timing => .decode (wordStatus 0xFA) timing
  | .songContinue timing => .decode (wordStatus 0xFB) timing
  | .songStop timing => .decode (wordStatus 0xFC) timing
  | .sensing timing => .decode (wordStatus 0xFE) timing
  | .reset timing => .decode (wordStatus 0xFF) timing
  | .unhandled status timing => .decode (wordStatus status) timing
  | .setFilters mask => .setFilters mask

/-- The kind of a `DECODE` instruction (R12); `SETFILTERS` has none. -/
def Instr.kind? : Instr → Option Kind
  | .noteOff _ _ _ _ => some .noteOff
  | .noteOn _ _ _ _ => some .noteOn
  | .keyPressure _ _ _ _ => some .keyPressure
  | .controlChange _ _ _ _ => some .controlChange
  | .programChange _ _ _ => some .programChange
  | .channelPressure _ _ => some .channelPressure
  | .pitchWheel _ _ _ _ => some .pitchWheel
  | .songPosition _ _ => some .songPosition
  | .songSelect _ _ => some .songSelect
  | .tuneRequest _ => some .tuneRequest
  | .midiClock _ => some .midiClock
  | .midiTick _ => some .midiTick
  | .songStart _ => some .songStart
  | .songContinue _ => some .songContinue
  | .songStop _ => some .songStop
  | .sensing _ => some .sensing
  | .reset _ => some .reset
  | .unhandled _ _ => some .unhandled
  | .setFilters _ => none

/-- The number of an instruction's canonical command. -/
def encodeBits (i : Instr) : Nat := (encode i).toBits

/-! ## The opcode map as rows (R78, R79)

The twenty-four `DECODE` rows of opcode_table.json; the twenty-fifth row, `SETFILTERS`, is selected by `op`. -/

/-- One `DECODE` row: the kind of the words with `message & mask == pattern` (R79). -/
structure OpcodeRow where
  pattern : Word
  mask : Word
  kind : Kind
  deriving DecidableEq, Repr

/-- Whether a message word matches a row (R79). -/
def OpcodeRow.covers (r : OpcodeRow) (message : Word) : Bool :=
  message &&& r.mask == r.pattern

/-- The channel-voice rows (R63 to R66). -/
def channelVoiceRows : List OpcodeRow :=
  [ ⟨0x80, 0xF0, .noteOff⟩, ⟨0x90, 0xF0, .noteOn⟩, ⟨0xA0, 0xF0, .keyPressure⟩, ⟨0xB0, 0xF0, .controlChange⟩,
    ⟨0xC0, 0xF0, .programChange⟩, ⟨0xD0, 0xF0, .channelPressure⟩, ⟨0xE0, 0xF0, .pitchWheel⟩ ]

/-- The named system rows (R67 to R69). -/
def systemRows : List OpcodeRow :=
  [ ⟨0xF2, 0xFF, .songPosition⟩, ⟨0xF3, 0xFF, .songSelect⟩, ⟨0xF6, 0xFF, .tuneRequest⟩, ⟨0xF8, 0xFF, .midiClock⟩,
    ⟨0xF9, 0xFF, .midiTick⟩, ⟨0xFA, 0xFF, .songStart⟩, ⟨0xFB, 0xFF, .songContinue⟩, ⟨0xFC, 0xFF, .songStop⟩,
    ⟨0xFE, 0xFF, .sensing⟩, ⟨0xFF, 0xFF, .reset⟩ ]

/-- The seven `UNHANDLED` rows (R70, R79). -/
def unhandledRows : List OpcodeRow :=
  [ ⟨0x00, 0x80, .unhandled⟩, ⟨0xF0, 0xFF, .unhandled⟩, ⟨0xF1, 0xFF, .unhandled⟩, ⟨0xF4, 0xFF, .unhandled⟩,
    ⟨0xF5, 0xFF, .unhandled⟩, ⟨0xF7, 0xFF, .unhandled⟩, ⟨0xFD, 0xFF, .unhandled⟩ ]

/-- The `DECODE` rows of the opcode map. -/
def opcodeRows : List OpcodeRow := channelVoiceRows ++ systemRows ++ unhandledRows

/-- The bits of a message word that its kind's format does not mark "ignored" (R63 to R70, R80). -/
def Kind.significantBits : Kind → Word
  | .noteOff | .noteOn | .keyPressure | .controlChange => 0x00FFFFFF
  | .programChange => 0x00007FFF
  | .pitchWheel => 0x007F7FFF
  | .songPosition => 0x000FFFFF
  | .songSelect => 0x0000FFFF
  | .channelPressure | .tuneRequest | .midiClock | .midiTick | .songStart | .songContinue | .songStop
  | .sensing | .reset | .unhandled => 0x000000FF

end Sys2Proof
end

