-- ==== Sys2Proof/Config.lean ====
section
/-! DEFINITION. What the spec fixes for this block as a parameter (spec 00_scope.md R6) and the six event
categories (R12, R162). The block has no free value: no rule leaves a value open (93_implementation_defined.md,
closing sentence of section 1), so nothing here is opaque. -/

namespace Sys2Proof

/-- The event categories, one flag of `FILTER` each (R12, R162). Their bit positions are in
Machine/Flags.lean. -/
inductive Category where
  | note
  | controlChange
  | programChange
  | pitchWheel
  | song
  | midiSync
  deriving DecidableEq, Repr

namespace Config

/-- `PROG_RESET` (R6, R30): "starting from initial state (old=0)". -/
def progReset : Program := 0

/-- `FILTER_RESET` as the set of named categories (R6, R30): "Default mask = {Note, ControlChange, PitchWheel}". -/
def filterResetSet : List Category := [.note, .controlChange, .pitchWheel]

end Config

end Sys2Proof
end

