-- ==== Sys2Proof/Machine/Flags.lean ====
section
/-! DEFINITION. The category flags of `FILTER` and the gate they control (spec 42_filter_and_dispatch.md section 2).
The block has no condition codes (R23); these are its only flags. -/

namespace Sys2Proof

/-- `bit(c)` (R163, R27): the position of a category's flag in `FILTER`. -/
def Category.bit : Category → Nat
  | .note => 0
  | .controlChange => 1
  | .programChange => 2
  | .pitchWheel => 3
  | .song => 4
  | .midiSync => 5

namespace Machine

/-- `enabled(c)` on a mask value (R163): a pure bit test. -/
def enabledIn (filter : Word) (c : Category) : Bool := filter.getLsbD c.bit

/-- The mask that has exactly the flags of the listed categories set (R85's `SETFILTERS` with a set of names). -/
def maskOf : List Category → Word
  | [] => 0
  | c :: cs => BitVec.twoPow 32 c.bit ||| maskOf cs

/-- The gate (R164, R165): the event is dispatched when its category is enabled, and dropped otherwise. -/
def gate {α : Type} (filter : Word) (c : Category) (event : α) : Option α :=
  if enabledIn filter c then some event else none

end Machine

end Sys2Proof
end

