-- ==== Sys2Proof/Machine/State.lean ====
section
/-! DEFINITION. The state of the machine. The architectural state, `Arch`, is the pair `(PROG, FILTER)` and nothing else
(spec 10_state.md R21). In `State` there stand beside it the two sides of the block's ports, which a step without arguments needs as
data: what the host presents on the input pins in the steps to come (notes/assumptions/1.md), and what the block drove on
its output ports in the step just made (notes/assumptions/2.md). -/

namespace Sys2Proof.Machine

/-! ## What a step gives out (R12) -/

/-- The decode result of a `DECODE` step (R12, R174): the kind and the fields extracted for it, before the gate. -/
inductive Decoded where
  | noteOff (channel : Channel) (note velocity : Byte)
  | noteOn (channel : Channel) (note velocity : Byte)
  | keyPressure (channel : Channel) (note pressure : Byte)
  | controlChange (channel : Channel) (controller value : Byte)
  | programChange (channel : Channel) (program old : Program)
  | channelPressure (channel : Channel)
  | pitchWheel (channel : Channel) (value : BitVec 14)
  | songPosition (beats : BitVec 12) (positionInClocks : BitVec 15)
  | songSelect (song : Byte)
  | tuneRequest
  | midiClock
  | midiTick
  | songStart
  | songContinue
  | songStop
  | sensing
  | reset
  | unhandled
  deriving DecidableEq, Repr

/-- An event (R12, R167): one of the seven variants that reach the sink, with only its own fields. -/
inductive Event where
  | noteOff (channel : Channel) (note velocity : Byte)
  | noteOn (channel : Channel) (note velocity : Byte)
  | keyPressure (channel : Channel) (note pressure : Byte)
  | controlChange (channel : Channel) (controller value : Byte)
  | programChange (channel : Channel) (new old : Program)
  | pitchWheel (channel : Channel) (value : BitVec 14)
  | reset
  deriving DecidableEq, Repr

/-- The results of one step that leave the block (R12's `StepResult` less the next state): the decode result, the
event result and the timing sideband. -/
structure Outputs where
  dec : Option Decoded
  ev : Option Event
  evTiming : Word
  deriving DecidableEq, Repr

/-- The outputs of a step that gives nothing out: idle, hardware reset or `SETFILTERS` (R161, R176, R211). -/
def Outputs.silent : Outputs := { dec := none, ev := none, evTiming := 0 }

/-! ## The pins (R172, R175, R176) -/

/-- The input pins as presented in one step (R176). `clk` is not among them: a step has no length (R221). -/
structure PinsIn where
  rst : Bool
  cmdValid : Bool
  cmdOp : Bool
  cmdWord : Word
  cmdTiming : Word
  deriving DecidableEq, Repr

/-- The event port (R172). -/
structure EventPins where
  valid : Bool
  tag : BitVec 3
  channel : Channel
  a : BitVec 14
  b : BitVec 8
  timing : Word
  deriving DecidableEq, Repr

/-- The decode-status port (R175). -/
structure DecodePins where
  valid : Bool
  kind : BitVec 5
  channel : Channel
  a : BitVec 15
  b : BitVec 12
  deriving DecidableEq, Repr

/-- The output pins (R176). -/
structure PinsOut where
  cmdReady : Bool
  event : EventPins
  decode : DecodePins
  deriving DecidableEq, Repr

/-! ## How a step can stop -/

/-- The faults of a step: none. "A model's step has no fault constructor" (R191); the block raises nothing (R190).
An empty type is safe: no step can be said to fault where the block goes on. -/
inductive Fault
  deriving DecidableEq, Repr

/-- The refusals of a step. The spec refuses nothing (R13, R191); the one constructor is the host interface's, which asks
for it by name (notes/assumptions/9.md). `totalStep` is the step without it. -/
inductive Refusal where
  /-- An arm of `exec` without a meaning, by its mnemonic. No arm raises it: every instruction has its meaning. It
  would be safe. -/
  | notModelled (mnemonic : String)
  deriving DecidableEq, Repr

/-! ## The state -/

/-- The complete architectural state (R21): these two components and no other. -/
structure Arch where
  /-- `PROG` (R24): the program number of the last `PROGRAMCHANGE` decoded since hardware reset, on any channel. -/
  prog : Program
  /-- `FILTER` (R27): the active category mask, all 32 bits stored as written. -/
  filter : Word
  deriving DecidableEq, Repr

/-- `S0` (R30, R210): the architectural state right after hardware reset. -/
def Arch.reset : Arch :=
  { prog := Config.progReset
    filter := maskOf Config.filterResetSet }

/-- What a step of the host interface, which has no argument beside the state, works on: the architectural state, and the
two sides of the ports. Neither side is state of the block (notes/assumptions/1.md, 2.md). -/
structure State extends Arch where
  /-- The host's side of the port: the input pins of the next step, of the one after it, and so on. Where the list
  ends, no command is presented and the block idles (R176, R178). The model's own field. -/
  inputs : List PinsIn
  /-- The block's side of the ports in the step just made. Each step writes it whole and none reads it (R33, R168).
  The model's own field. -/
  out : Outputs
  deriving DecidableEq, Repr

/-- The state right after hardware reset (R30, R210), `S0`, with nothing presented yet and nothing driven. -/
def State.reset : State :=
  { toArch := Arch.reset
    inputs := []
    out := Outputs.silent }

end Sys2Proof.Machine
end

