-- ==== Sys2Proof/Machine/Ops.lean ====
section
/-! DEFINITION. The operations the meanings share: writing a register, finishing a step with its results, idling and
hardware reset. There is no operation over memory, since the block has none (spec 20_memory.md R40), and none that
takes an exception or returns from one, since the block raises nothing (60_exceptions.md R190, R195, R196). -/

namespace Sys2Proof.Machine

/-- `PROG <- program` (R25). -/
def State.writeProg (s : State) (program : Program) : State := { s with prog := program }

/-- `FILTER <- mask` (R29, R160): all 32 bits replaced. -/
def State.writeFilter (s : State) (mask : Word) : State := { s with filter := mask }

/-- The gate on the mask of this state (R163, R164). -/
def State.gated (s : State) (c : Category) (event : Event) : Option Event := gate s.filter c event

/-- Finish a `DECODE` step: its decode result (R174), its event result (R170), and the timing value passed through
beside an event and 0 otherwise (R173). `PROG` and `FILTER` stay. -/
def State.decoded (s : State) (dec : Decoded) (ev : Option Event) (timing : Word) : State :=
  { s with out := { dec := some dec, ev := ev, evTiming := if ev.isSome then timing else 0 } }

/-- Finish a step that gives nothing out (R161, R176, R211). -/
def State.silent (s : State) : State := { s with out := Outputs.silent }

/-- An idle step (R176, R204): the state is unchanged and no output is valid. -/
def State.idle (s : State) : State := s.silent

/-- Hardware reset (R210, R211, R212): `PROG` and `FILTER` take their reset values, nothing is dispatched. What the
host presents later is the host's, not the block's, and stays. -/
def State.hardwareReset (s : State) : State :=
  (s.silent.writeProg Arch.reset.prog).writeFilter Arch.reset.filter

end Sys2Proof.Machine
end

