-- ==== Sys2Proof/Machine/ChannelVoice.lean ====
section
/-! DEFINITION. The meanings of the seven channel-voice kinds (spec 40_channel_voice.md). -/

namespace Sys2Proof.Machine

/-- `NOTEOFF` (R100). -/
def execNoteOff (channel : Channel) (note velocity : Byte) (timing : Word) (s : State) :
    Host.Outcome State Fault Refusal :=
  .next (s.decoded (.noteOff channel note velocity) (s.gated .note (.noteOff channel note velocity)) timing)

/-- `NOTEON` (R101); velocity 0 is not special. -/
def execNoteOn (channel : Channel) (note velocity : Byte) (timing : Word) (s : State) :
    Host.Outcome State Fault Refusal :=
  .next (s.decoded (.noteOn channel note velocity) (s.gated .note (.noteOn channel note velocity)) timing)

/-- `KEYPRESSURE` (R102); gated by the `Note` category. -/
def execKeyPressure (channel : Channel) (note pressure : Byte) (timing : Word) (s : State) :
    Host.Outcome State Fault Refusal :=
  .next (s.decoded (.keyPressure channel note pressure) (s.gated .note (.keyPressure channel note pressure)) timing)

/-- `CONTROLCHANGE` (R103); no controller number is special. -/
def execControlChange (channel : Channel) (controller value : Byte) (timing : Word) (s : State) :
    Host.Outcome State Fault Refusal :=
  .next (s.decoded (.controlChange channel controller value)
    (s.gated .controlChange (.controlChange channel controller value)) timing)

/-- `PROGRAMCHANGE` (R104): the results carry `old`, the `PROG` of the start of the step; then `PROG` is written,
whether or not the event was dispatched. -/
def execProgramChange (channel : Channel) (program : Program) (timing : Word) (s : State) :
    Host.Outcome State Fault Refusal :=
  .next ((s.decoded (.programChange channel program s.prog)
    (s.gated .programChange (.programChange channel program s.prog)) timing).writeProg program)

/-- `CHANNELPRESSURE` (R105), decode-only. -/
def execChannelPressure (channel : Channel) (timing : Word) (s : State) : Host.Outcome State Fault Refusal :=
  .next (s.decoded (.channelPressure channel) none timing)

/-- `PITCHWHEEL` (R106). -/
def execPitchWheel (channel : Channel) (lsb msb : BitVec 7) (timing : Word) (s : State) :
    Host.Outcome State Fault Refusal :=
  .next (s.decoded (.pitchWheel channel (pitchValue lsb msb))
    (s.gated .pitchWheel (.pitchWheel channel (pitchValue lsb msb))) timing)

end Sys2Proof.Machine
end

