-- ==== Sys2Proof/Machine/Configuration.lean ====
section
/-! DEFINITION. The meaning of `SETFILTERS`, the one configuration command (spec 42_filter_and_dispatch.md R160, R161). -/

namespace Sys2Proof.Machine

/-- `SETFILTERS` (R160, R161): the mask is replaced wholesale; nothing is given out. -/
def execSetFilters (mask : Word) (s : State) : Host.Outcome State Fault Refusal :=
  .next (s.silent.writeFilter mask)

end Sys2Proof.Machine
end

