-- ==== Sys2Proof/Machine/SystemMessages.lean ====
section
/-! DEFINITION. The meanings of the ten named system kinds and of `UNHANDLED` (spec 41_system_messages.md). None reads
or writes `PROG` or `FILTER`; only `RESET` dispatches. -/

namespace Sys2Proof.Machine

/-- `SONGPOSITION` (R130), decode-only. -/
def execSongPosition (beats : BitVec 12) (timing : Word) (s : State) : Host.Outcome State Fault Refusal :=
  .next (s.decoded (.songPosition beats (songClocks beats)) none timing)

/-- `SONGSELECT` (R131), decode-only. -/
def execSongSelect (song : Byte) (timing : Word) (s : State) : Host.Outcome State Fault Refusal :=
  .next (s.decoded (.songSelect song) none timing)

/-- `TUNEREQUEST` (R132), decode-only. -/
def execTuneRequest (timing : Word) (s : State) : Host.Outcome State Fault Refusal :=
  .next (s.decoded .tuneRequest none timing)

/-- `MIDICLOCK` (R133), decode-only; nothing is counted. -/
def execMidiClock (timing : Word) (s : State) : Host.Outcome State Fault Refusal :=
  .next (s.decoded .midiClock none timing)

/-- `MIDITICK` (R134), decode-only. -/
def execMidiTick (timing : Word) (s : State) : Host.Outcome State Fault Refusal :=
  .next (s.decoded .midiTick none timing)

/-- `SONGSTART` (R135), decode-only. -/
def execSongStart (timing : Word) (s : State) : Host.Outcome State Fault Refusal :=
  .next (s.decoded .songStart none timing)

/-- `SONGCONTINUE` (R136), decode-only. -/
def execSongContinue (timing : Word) (s : State) : Host.Outcome State Fault Refusal :=
  .next (s.decoded .songContinue none timing)

/-- `SONGSTOP` (R137), decode-only. -/
def execSongStop (timing : Word) (s : State) : Host.Outcome State Fault Refusal :=
  .next (s.decoded .songStop none timing)

/-- `SENSING` (R138), decode-only; no watchdog runs. -/
def execSensing (timing : Word) (s : State) : Host.Outcome State Fault Refusal :=
  .next (s.decoded .sensing none timing)

/-- `RESET`, the Reset message (R139): always dispatched, `FILTER` is not consulted, no state changes. -/
def execReset (timing : Word) (s : State) : Host.Outcome State Fault Refusal :=
  .next (s.decoded .reset (some .reset) timing)

/-- `UNHANDLED` (R140): no event, no error; the status byte is recorded nowhere. -/
def execUnhandled (_status : Byte) (timing : Word) (s : State) : Host.Outcome State Fault Refusal :=
  .next (s.decoded .unhandled none timing)

end Sys2Proof.Machine
end

