-- ==== Sys2Proof/Machine/Dispatch.lean ====
section
/-! DEFINITION. One arm per instruction, each a direct call of its meaning. -/

namespace Sys2Proof.Machine

/-- The step of one command, once decoded (R177). -/
def exec (i : Instr) (s : State) : Host.Outcome State Fault Refusal :=
  match i with
  | .noteOff channel note velocity timing => Sys2Proof.Machine.execNoteOff channel note velocity timing s
  | .noteOn channel note velocity timing => Sys2Proof.Machine.execNoteOn channel note velocity timing s
  | .keyPressure channel note pressure timing => Sys2Proof.Machine.execKeyPressure channel note pressure timing s
  | .controlChange channel controller value timing => Sys2Proof.Machine.execControlChange channel controller value timing s
  | .programChange channel program timing => Sys2Proof.Machine.execProgramChange channel program timing s
  | .channelPressure channel timing => Sys2Proof.Machine.execChannelPressure channel timing s
  | .pitchWheel channel lsb msb timing => Sys2Proof.Machine.execPitchWheel channel lsb msb timing s
  | .songPosition beats timing => Sys2Proof.Machine.execSongPosition beats timing s
  | .songSelect song timing => Sys2Proof.Machine.execSongSelect song timing s
  | .tuneRequest timing => Sys2Proof.Machine.execTuneRequest timing s
  | .midiClock timing => Sys2Proof.Machine.execMidiClock timing s
  | .midiTick timing => Sys2Proof.Machine.execMidiTick timing s
  | .songStart timing => Sys2Proof.Machine.execSongStart timing s
  | .songContinue timing => Sys2Proof.Machine.execSongContinue timing s
  | .songStop timing => Sys2Proof.Machine.execSongStop timing s
  | .sensing timing => Sys2Proof.Machine.execSensing timing s
  | .reset timing => Sys2Proof.Machine.execReset timing s
  | .unhandled status timing => Sys2Proof.Machine.execUnhandled status timing s
  | .setFilters mask => Sys2Proof.Machine.execSetFilters mask s

end Sys2Proof.Machine
end

