-- ==== Sys2Proof/Machine/Ports.lean ====
section
/-! DEFINITION. The pins: how the input pins carry a command, and the spec's own encodings of the results on the output
pins (spec 30_encoding.md R60, 42_filter_and_dispatch.md R172, R175, R176). The abstract results of `Outputs` are
normative; the pins are a function of them. -/

namespace Sys2Proof.Machine

/-! ## Input pins -/

/-- The command on the command port: one when `cmd_valid` = 1 (R60, R176), and none in a step in which `rst` is asserted,
where "a command presented on the command port is not accepted" (R211). -/
def PinsIn.command (p : PinsIn) : Option Command :=
  if p.rst || !p.cmdValid then none else some (.ofFields p.cmdOp p.cmdWord p.cmdTiming)

/-- The pins that present a command. -/
def PinsIn.presenting (c : Command) : PinsIn :=
  { rst := false, cmdValid := true, cmdOp := c.op, cmdWord := c.word, cmdTiming := c.timing }

/-- The pins of a step in which nothing is presented. -/
def PinsIn.quiet : PinsIn := { rst := false, cmdValid := false, cmdOp := false, cmdWord := 0, cmdTiming := 0 }

/-! ## The event port (R172) -/

/-- `ev_tag` (R172). -/
def Event.tag : Event → BitVec 3
  | .noteOff _ _ _ => 0
  | .noteOn _ _ _ => 1
  | .keyPressure _ _ _ => 2
  | .controlChange _ _ _ => 3
  | .programChange _ _ _ => 4
  | .pitchWheel _ _ => 6
  | .reset => 7

/-- `ev_channel` (R172). -/
def Event.channelPin : Event → Channel
  | .noteOff channel _ _ => channel
  | .noteOn channel _ _ => channel
  | .keyPressure channel _ _ => channel
  | .controlChange channel _ _ => channel
  | .programChange channel _ _ => channel
  | .pitchWheel channel _ => channel
  | .reset => 0

/-- `ev_a` (R172). -/
def Event.aPin : Event → BitVec 14
  | .noteOff _ note _ => note.setWidth 14
  | .noteOn _ note _ => note.setWidth 14
  | .keyPressure _ note _ => note.setWidth 14
  | .controlChange _ controller _ => controller.setWidth 14
  | .programChange _ new _ => new.setWidth 14
  | .pitchWheel _ value => value
  | .reset => 0

/-- `ev_b` (R172). -/
def Event.bPin : Event → BitVec 8
  | .noteOff _ _ velocity => velocity
  | .noteOn _ _ velocity => velocity
  | .keyPressure _ _ pressure => pressure
  | .controlChange _ _ value => value
  | .programChange _ _ old => old.setWidth 8
  | .pitchWheel _ _ => 0
  | .reset => 0

/-- The event port: all zero when there is no event (R172). -/
def Outputs.eventPins (o : Outputs) : EventPins :=
  match o.ev with
  | none => { valid := false, tag := 0, channel := 0, a := 0, b := 0, timing := 0 }
  | some e =>
    { valid := true, tag := e.tag, channel := e.channelPin, a := e.aPin, b := e.bPin, timing := o.evTiming }

/-! ## The decode-status port (R175) -/

/-- The kind of a decode result (R174). -/
def Decoded.kind : Decoded → Kind
  | .noteOff _ _ _ => .noteOff
  | .noteOn _ _ _ => .noteOn
  | .keyPressure _ _ _ => .keyPressure
  | .controlChange _ _ _ => .controlChange
  | .programChange _ _ _ => .programChange
  | .channelPressure _ => .channelPressure
  | .pitchWheel _ _ => .pitchWheel
  | .songPosition _ _ => .songPosition
  | .songSelect _ => .songSelect
  | .tuneRequest => .tuneRequest
  | .midiClock => .midiClock
  | .midiTick => .midiTick
  | .songStart => .songStart
  | .songContinue => .songContinue
  | .songStop => .songStop
  | .sensing => .sensing
  | .reset => .reset
  | .unhandled => .unhandled

/-- `dec_kind` (R175). -/
def kindCode : Kind → BitVec 5
  | .unhandled => 0x00
  | .noteOff => 0x08
  | .noteOn => 0x09
  | .keyPressure => 0x0A
  | .controlChange => 0x0B
  | .programChange => 0x0C
  | .channelPressure => 0x0D
  | .pitchWheel => 0x0E
  | .songPosition => 0x12
  | .songSelect => 0x13
  | .tuneRequest => 0x16
  | .midiClock => 0x18
  | .midiTick => 0x19
  | .songStart => 0x1A
  | .songContinue => 0x1B
  | .songStop => 0x1C
  | .sensing => 0x1E
  | .reset => 0x1F

/-- `dec_channel` (R175). -/
def Decoded.channelPin : Decoded → Channel
  | .noteOff channel _ _ => channel
  | .noteOn channel _ _ => channel
  | .keyPressure channel _ _ => channel
  | .controlChange channel _ _ => channel
  | .programChange channel _ _ => channel
  | .channelPressure channel => channel
  | .pitchWheel channel _ => channel
  | .songPosition _ _ | .songSelect _ | .tuneRequest | .midiClock | .midiTick | .songStart | .songContinue
  | .songStop | .sensing | .reset | .unhandled => 0

/-- `dec_a` (R175). -/
def Decoded.aPin : Decoded → BitVec 15
  | .noteOff _ note _ => note.setWidth 15
  | .noteOn _ note _ => note.setWidth 15
  | .keyPressure _ note _ => note.setWidth 15
  | .controlChange _ controller _ => controller.setWidth 15
  | .programChange _ program _ => program.setWidth 15
  | .pitchWheel _ value => value.setWidth 15
  | .songPosition _ positionInClocks => positionInClocks
  | .songSelect song => song.setWidth 15
  | .channelPressure _ | .tuneRequest | .midiClock | .midiTick | .songStart | .songContinue | .songStop
  | .sensing | .reset | .unhandled => 0

/-- `dec_b` (R175). -/
def Decoded.bPin : Decoded → BitVec 12
  | .noteOff _ _ velocity => velocity.setWidth 12
  | .noteOn _ _ velocity => velocity.setWidth 12
  | .keyPressure _ _ pressure => pressure.setWidth 12
  | .controlChange _ _ value => value.setWidth 12
  | .programChange _ _ old => old.setWidth 12
  | .songPosition beats _ => beats
  | .channelPressure _ | .pitchWheel _ _ | .songSelect _ | .tuneRequest | .midiClock | .midiTick | .songStart
  | .songContinue | .songStop | .sensing | .reset | .unhandled => 0

/-- The decode-status port: all zero when there is no decode result (R175). -/
def Outputs.decodePins (o : Outputs) : DecodePins :=
  match o.dec with
  | none => { valid := false, kind := 0, channel := 0, a := 0, b := 0 }
  | some d => { valid := true, kind := kindCode d.kind, channel := d.channelPin, a := d.aPin, b := d.bPin }

/-- The output pins (R176): the command port is always ready (R171). -/
def Outputs.pins (o : Outputs) : PinsOut :=
  { cmdReady := true, event := o.eventPins, decode := o.decodePins }

end Sys2Proof.Machine
end

