-- ==== Sys2Proof/Machine/Fetch.lean ====
section
/-! DEFINITION. What the next step is to do. The block fetches nothing (spec 10_state.md R22): commands are pushed into it,
one a step, in the order the host presents them (20_memory.md R47). -/

namespace Sys2Proof.Machine

/-- What the input pins of one step ask for. -/
inductive Action where
  /-- No command is accepted and `rst` is not asserted (R176). -/
  | idle
  /-- `rst` is asserted (R210). -/
  | hardwareReset
  /-- A command is accepted (R176). -/
  | run (i : Instr)
  deriving DecidableEq, Repr

/-- The action that the input pins of one step ask for; hardware reset overrides a command (R211). -/
def PinsIn.action (p : PinsIn) : Action :=
  if p.rst then .hardwareReset
  else
    match p.command with
    | none => .idle
    | some c => .run (decode c)

/-- The action of the next step: the block idles when the host presents nothing more (R178). -/
def State.action (s : State) : Action :=
  match s.inputs with
  | [] => .idle
  | p :: _ => p.action

/-- The state with the pins of this step taken: "A command exists for the block only during its own step" (R50). -/
def State.taken (s : State) : State := { s with inputs := s.inputs.tail }

/-- The state with one command presented before whatever the host presents later. -/
def State.presented (s : State) (c : Command) : State := { s with inputs := .presenting c :: s.inputs }

end Sys2Proof.Machine
end

