-- ==== Sys2Proof/Machine/Step.lean ====
section
/-! DEFINITION. One step of the block (spec 42_filter_and_dispatch.md R176, R177). -/

namespace Sys2Proof.Machine

/-- One step: take the input pins of this step, then reset, idle or run the command on them. -/
def step (s : State) : Host.Outcome State Fault Refusal :=
  match s.action with
  | .idle => .next s.taken.idle
  | .hardwareReset => .next s.taken.hardwareReset
  | .run i => exec i s.taken

/-- `s` with the command whose low `nbits` bits are `w` presented in the very next step (notes/assumptions/6.md). -/
def State.withFetchWord (s : State) (nbits w : Nat) : State := s.presented (.ofBits (w % 2 ^ nbits))

end Sys2Proof.Machine
end

