-- ==== Sys2Proof/Machine/Reference.lean ====
section
/-! DEFINITION. The top-level step as spec 42_filter_and_dispatch.md R177 writes it out, straight on the bits of the message
word and of `FILTER`, without the decoder, the meanings or the gate. The machine does not use it: it is what the machine
is compared with. -/

namespace Sys2Proof.Reference

open Sys2Proof.Machine

/-- The pair `S = (PROG, FILTER)` (R9, R21): the machine's own architectural state. -/
abbrev Pair := Arch

/-- `S0` (R210), by its numbers. -/
def Pair.reset : Pair := { prog := 0, filter := 0x0000000B }

/-- `ev` (R177), its bit slices read off the message word. -/
def event (s : Pair) (message : Word) : Option Event :=
  let channel := message.extractLsb' 0 4
  let first := message.extractLsb' 8 8
  let second := message.extractLsb' 16 8
  match classify message with
  | .noteOff => if s.filter.getLsbD 0 then some (.noteOff channel first second) else none
  | .noteOn => if s.filter.getLsbD 0 then some (.noteOn channel first second) else none
  | .keyPressure => if s.filter.getLsbD 0 then some (.keyPressure channel first second) else none
  | .controlChange => if s.filter.getLsbD 1 then some (.controlChange channel first second) else none
  | .programChange =>
    if s.filter.getLsbD 2 then some (.programChange channel (message.extractLsb' 8 7) s.prog) else none
  | .pitchWheel =>
    if s.filter.getLsbD 3 then
      some (.pitchWheel channel (message.extractLsb' 16 7 ++ message.extractLsb' 8 7))
    else none
  | .reset => some .reset
  | _ => none

/-- The `decoded` lines of R100 to R106 and R130 to R140, with the source's own formulas for the pitch value
(R106) and the clocks (R130). -/
def decoded (s : Pair) (message : Word) : Decoded :=
  let channel := message.extractLsb' 0 4
  let first := message.extractLsb' 8 8
  let second := message.extractLsb' 16 8
  match classify message with
  | .noteOff => .noteOff channel first second
  | .noteOn => .noteOn channel first second
  | .keyPressure => .keyPressure channel first second
  | .controlChange => .controlChange channel first second
  | .programChange => .programChange channel (message.extractLsb' 8 7) s.prog
  | .channelPressure => .channelPressure channel
  | .pitchWheel =>
    .pitchWheel channel ((((message &&& 0x007F0000) >>> 9) ||| ((message &&& 0x00007F00) >>> 8)).setWidth 14)
  | .songPosition =>
    .songPosition (message.extractLsb' 8 12) (BitVec.ofNat 15 ((message.extractLsb' 8 12).toNat * 6))
  | .songSelect => .songSelect first
  | .tuneRequest => .tuneRequest
  | .midiClock => .midiClock
  | .midiTick => .midiTick
  | .songStart => .songStart
  | .songContinue => .songContinue
  | .songStop => .songStop
  | .sensing => .sensing
  | .reset => .reset
  | .unhandled => .unhandled

/-- `step : State -> Command -> StepResult` (R177). -/
def step (s : Pair) : Command → Pair × Outputs
  | .setFilters mask => ({ s with filter := mask }, { dec := none, ev := none, evTiming := 0 })
  | .decode message timing =>
    ({ s with prog := if classify message = .programChange then message.extractLsb' 8 7 else s.prog },
      { dec := some (decoded s message)
        ev := event s message
        evTiming := if (event s message).isSome then timing else 0 })

/-- One step seen from the input pins: reset wins (R211), no `cmd_valid` is an idle step (R176), otherwise the command
with `op` 0 or 1 (R60). -/
def pinsStep (s : Pair) (p : PinsIn) : Pair × Outputs :=
  if p.rst then (Pair.reset, { dec := none, ev := none, evTiming := 0 })
  else if p.cmdValid then
    step s (if p.cmdOp then .setFilters p.cmdWord else .decode p.cmdWord p.cmdTiming)
  else (s, { dec := none, ev := none, evTiming := 0 })

/-- A run as the left fold of the step (R47, R178): the pair it ends in and the outputs of its steps, in order. -/
def run (s : Pair) : List PinsIn → Pair × List Outputs
  | [] => (s, [])
  | p :: ps =>
    let r := pinsStep s p
    let rest := run r.1 ps
    (rest.1, r.2 :: rest.2)

end Sys2Proof.Reference
end

