-- ==== Sys2Proof/Machine/Run.lean ====
section
/-! DEFINITION. What an observer of the ports sees of a run (spec 42_filter_and_dispatch.md R178): the outputs of its steps
in order, and of those the events with their timing and the decode results. The state a run ends in is
`Host.Core.run`'s. -/

namespace Sys2Proof.Machine

/-- The outputs of the next `n` steps, in order (R51, R178). -/
def trace : Nat → State → List Outputs
  | 0, _ => []
  | n + 1, s =>
    match step s with
    | .next t => t.out :: trace n t
    | .fault r => nomatch r
    | .refused _ => []

/-- The observable trace of R178: the events that are not `none`, in order, each with its `ev_timing`. -/
def eventTrace (n : Nat) (s : State) : List (Event × Word) :=
  (trace n s).filterMap fun o => o.ev.map fun e => (e, o.evTiming)

/-- The decode results that are not `none`, in order (R178). -/
def decodeTrace (n : Nat) (s : State) : List Decoded := (trace n s).filterMap Outputs.dec

end Sys2Proof.Machine
end

