-- ==== Sys2Proof/Machine/System.lean ====
section
/-! DEFINITION. Several decoders side by side (spec 60_exceptions.md R200, R201): each with its own state, its own command
port and its own event port, and nothing shared (notes/assumptions/8.md). -/

namespace Sys2Proof.Machine

/-- One step of the decoder at position `k`; where there is no such decoder nothing happens. -/
def systemStep (k : Nat) (system : List State) : Host.Outcome (List State) Fault Refusal :=
  match system[k]? with
  | none => .next system
  | some s =>
    match step s with
    | .next t => .next (system.set k t)
    | .fault r => .fault r
    | .refused r => .refused r

/-- An interleaving: the decoders at the listed positions step one after the other. -/
def systemRun : List Nat → List State → Host.Outcome (List State) Fault Refusal
  | [], system => .next system
  | k :: ks, system =>
    match systemStep k system with
    | .next system' => systemRun ks system'
    | .fault r => .fault r
    | .refused r => .refused r

end Sys2Proof.Machine
end

