-- ==== Sys2Proof/Machine/Total.lean ====
section
/-! DEFINITION. The step with the types the spec gives it (spec 00_scope.md R13, 60_exceptions.md R191): a total function to a
next state, with no fault constructor and no refusal constructor, and on the architectural state alone (R177). `step` answers in the host interface's `Outcome`, whose
refusal type has a constructor the interface asks for (notes/assumptions/9.md); the two theorems here say that it is never
answered, and `totalStep` is built on them, so that its type holds nothing but states. -/

namespace Sys2Proof.Machine

/-- No instruction is refused in any state (R13, R191). -/
theorem exec_ne_refused (i : Instr) (s : State) (r : Refusal) : exec i s ≠ .refused r := by
  cases i <;> exact nofun

/-- No step is refused (R13, R191). -/
theorem step_ne_refused (s : State) (r : Refusal) : step s ≠ .refused r := by
  unfold step
  split
  · exact nofun
  · exact nofun
  · exact exec_ne_refused _ _ r

/-- The step of R13 and R191: from every state to the next. Neither branch beside `next` can be reached: there is no
fault to name, and no step is refused. -/
def totalStep (s : State) : State :=
  match h : step s with
  | .next t => t
  | .fault r => nomatch r
  | .refused r => absurd h (step_ne_refused s r)

/-- `step : State -> Command -> StepResult` (R12, R177) of this machine, on the architectural state alone: the step of a block
in state `a` to which the one command `c` is presented. `Reference.step` is the same function as the spec writes it out. -/
def commandStep (a : Arch) (c : Command) : Arch × Outputs :=
  let t := totalStep ({ toArch := a, inputs := [], out := Outputs.silent : State }.presented c)
  (t.toArch, t.out)

end Sys2Proof.Machine
end

