-- ==== Sys2Proof/Safety.lean ====
section
/-! DEFINITION. What counts as a safe outcome, and the predicates the statements are written in. -/

namespace Sys2Proof.Machine

/-- A step is safe when it completes: "it is always a next state" (spec 00_scope.md R13). -/
def Completes (o : Host.Outcome State Fault Refusal) : Prop := ∃ t, o = .next t

/-- The outcome is a next state of `s` with these registers, this decode result and this event; what the host presents
later is unchanged. With the timing sideband these are all the parts of a state. -/
def Gives (o : Host.Outcome State Fault Refusal) (s : State) (prog : Program) (filter : Word) (dec : Option Decoded)
    (ev : Option Event) : Prop :=
  ∃ t, o = .next t ∧ t.prog = prog ∧ t.filter = filter ∧ t.inputs = s.inputs ∧ t.out.dec = dec ∧ t.out.ev = ev

/-- The pair `(PROG, FILTER)` of a state (R21). -/
def State.pair (s : State) : Arch := s.toArch

/-- The event variant and fields that a decode result gives rise to, and none for the decode-only kinds and
`UNHANDLED` (R164, R167). -/
def Decoded.event? : Decoded → Option Event
  | .noteOff channel note velocity => some (.noteOff channel note velocity)
  | .noteOn channel note velocity => some (.noteOn channel note velocity)
  | .keyPressure channel note pressure => some (.keyPressure channel note pressure)
  | .controlChange channel controller value => some (.controlChange channel controller value)
  | .programChange channel program old => some (.programChange channel program old)
  | .pitchWheel channel value => some (.pitchWheel channel value)
  | .reset => some .reset
  | .channelPressure _ | .songPosition _ _ | .songSelect _ | .tuneRequest | .midiClock | .midiTick | .songStart
  | .songContinue | .songStop | .sensing | .unhandled => none

/-- The one kind whose messages produce this event variant (R164). -/
def Event.kind : Event → Kind
  | .noteOff _ _ _ => .noteOff
  | .noteOn _ _ _ => .noteOn
  | .keyPressure _ _ _ => .keyPressure
  | .controlChange _ _ _ => .controlChange
  | .programChange _ _ _ => .programChange
  | .pitchWheel _ _ => .pitchWheel
  | .reset => .reset

/-- The column "dispatched when" of R164: whether the messages of a kind dispatch an event under a mask. -/
def dispatchesUnder (filter : Word) : Kind → Bool
  | .noteOff | .noteOn | .keyPressure => enabledIn filter .note
  | .controlChange => enabledIn filter .controlChange
  | .programChange => enabledIn filter .programChange
  | .pitchWheel => enabledIn filter .pitchWheel
  | .reset => true
  | .channelPressure | .songPosition | .songSelect | .tuneRequest | .midiClock | .midiTick | .songStart
  | .songContinue | .songStop | .sensing | .unhandled => false

/-- The invariant of the ports: the outputs of the step just made agree with one another and with `PROG`.
No decode result, no event (R161); no event, no timing (R173); an event is that of the message decoded in the same step
(R164, R168); after a `PROGRAMCHANGE` step `PROG` is the program reported as new (R104); a song position is reported with
six clocks for each beat (R75). -/
structure PortsCoherent (s : State) : Prop where
  noDecodeNoEvent : s.out.dec = none → s.out.ev = none
  noEventNoTiming : s.out.ev = none → s.out.evTiming = 0
  eventOfDecode : ∀ e, s.out.ev = some e → ∃ d, s.out.dec = some d ∧ d.event? = some e
  programReported : ∀ channel program old, s.out.dec = some (.programChange channel program old) → s.prog = program
  clocksReported : ∀ beats clocks, s.out.dec = some (.songPosition beats clocks) → clocks.toNat = beats.toNat * 6

/-- The program of a `PROGRAMCHANGE` that the pins of a step present, if they do (R104). -/
def programPresented (p : PinsIn) : Option Program :=
  match p.command with
  | some (.decode message _) => if classify message = .programChange then some (low7Field message) else none
  | some (.setFilters _) => none
  | none => none

/-- "The `program` field of the last `PROGRAMCHANGE` message decoded since hardware reset, ..., or `PROG_RESET` = 0 when none
has been decoded" (R24): read off the pins of a run, the latest first, that started with `PROG` = `start`. -/
def lastProgram (start : Program) : List PinsIn → Program
  | [] => start
  | p :: earlier =>
    if p.rst then 0
    else
      match programPresented p with
      | some program => program
      | none => lastProgram start earlier

/-- The mask of the last `SETFILTERS` since hardware reset, or the reset mask when there was none (R29, R30): read off the
pins of a run, the latest first, that started with `FILTER` = `start`. -/
def lastMask (start : Word) : List PinsIn → Word
  | [] => start
  | p :: earlier =>
    if p.rst then 0x0000000B
    else
      match p.command with
      | some (.setFilters mask) => mask
      | some (.decode _ _) => lastMask start earlier
      | none => lastMask start earlier

/-- The same pins with another timing value (R173). -/
def PinsIn.withTiming (p : PinsIn) (timing : Word) : PinsIn := { p with cmdTiming := timing }

end Sys2Proof.Machine
end

