-- ==== Sys2Proof/Certificates/Slice0/Obligations.lean ====
section
/-! DEFINITION. The statements for the provers. -/

open Sys2Proof Sys2Proof.Machine

/-! ## The instructions: encoding, decode result, event, registers

Each says which words are the kind, what fields they decode to, and that the instruction completes from every state with
the decode result, the event and the registers its rule gives, everything else of the state (the host's pins) as it was.
The timing sideband has a statement of its own, `EventTimingIsPassedThrough`. -/

/-- R100: `NOTEOFF`. -/
def Obligations.NoteOffIsGatedByNote : Prop :=
  (∀ message timing : Word, message &&& 0x000000F0 = 0x00000080 →
    decode (.decode message timing) =
      .noteOff (message.extractLsb' 0 4) (message.extractLsb' 8 8) (message.extractLsb' 16 8) timing) ∧
  ∀ (channel : Channel) (note velocity : Byte) (timing : Word) (s : State),
    Gives (exec (.noteOff channel note velocity timing) s) s s.prog s.filter
      (some (.noteOff channel note velocity))
      (if enabledIn s.filter .note then some (.noteOff channel note velocity) else none)

/-- R101: `NOTEON`, for every velocity, 0 among them (the source's formulas make no exception; the spec names this reading
its decision D14). -/
def Obligations.NoteOnIsGatedByNote : Prop :=
  (∀ message timing : Word, message &&& 0x000000F0 = 0x00000090 →
    decode (.decode message timing) =
      .noteOn (message.extractLsb' 0 4) (message.extractLsb' 8 8) (message.extractLsb' 16 8) timing) ∧
  ∀ (channel : Channel) (note velocity : Byte) (timing : Word) (s : State),
    Gives (exec (.noteOn channel note velocity timing) s) s s.prog s.filter
      (some (.noteOn channel note velocity))
      (if enabledIn s.filter .note then some (.noteOn channel note velocity) else none)

/-- R102: `KEYPRESSURE`, gated by the `Note` category. -/
def Obligations.KeyPressureIsGatedByNote : Prop :=
  (∀ message timing : Word, message &&& 0x000000F0 = 0x000000A0 →
    decode (.decode message timing) =
      .keyPressure (message.extractLsb' 0 4) (message.extractLsb' 8 8) (message.extractLsb' 16 8) timing) ∧
  ∀ (channel : Channel) (note pressure : Byte) (timing : Word) (s : State),
    Gives (exec (.keyPressure channel note pressure timing) s) s s.prog s.filter
      (some (.keyPressure channel note pressure))
      (if enabledIn s.filter .note then some (.keyPressure channel note pressure) else none)

/-- R103: `CONTROLCHANGE`, for every controller number alike. -/
def Obligations.ControlChangeIsGatedByControlChange : Prop :=
  (∀ message timing : Word, message &&& 0x000000F0 = 0x000000B0 →
    decode (.decode message timing) =
      .controlChange (message.extractLsb' 0 4) (message.extractLsb' 8 8) (message.extractLsb' 16 8) timing) ∧
  ∀ (channel : Channel) (controller value : Byte) (timing : Word) (s : State),
    Gives (exec (.controlChange channel controller value timing) s) s s.prog s.filter
      (some (.controlChange channel controller value))
      (if enabledIn s.filter .controlChange then some (.controlChange channel controller value) else none)

/-- R104: `PROGRAMCHANGE` reports the old `PROG` and writes the new one, whether or not the event was dispatched. -/
def Obligations.ProgramChangeAlwaysWritesProg : Prop :=
  (∀ message timing : Word, message &&& 0x000000F0 = 0x000000C0 →
    decode (.decode message timing) =
      .programChange (message.extractLsb' 0 4) (message.extractLsb' 8 7) timing) ∧
  ∀ (channel : Channel) (program : Program) (timing : Word) (s : State),
    Gives (exec (.programChange channel program timing) s) s program s.filter
      (some (.programChange channel program s.prog))
      (if enabledIn s.filter .programChange then some (.programChange channel program s.prog) else none)

/-- R105: `CHANNELPRESSURE` dispatches nothing under any mask. -/
def Obligations.ChannelPressureIsDecodeOnly : Prop :=
  (∀ message timing : Word, message &&& 0x000000F0 = 0x000000D0 →
    decode (.decode message timing) = .channelPressure (message.extractLsb' 0 4) timing) ∧
  ∀ (channel : Channel) (timing : Word) (s : State),
    Gives (exec (.channelPressure channel timing) s) s s.prog s.filter (some (.channelPressure channel)) none

/-- R106: `PITCHWHEEL`: the value is the source's formula on the message word, and equally `{msb, lsb}`. -/
def Obligations.PitchWheelReassemblesAndIsGated : Prop :=
  (∀ message timing : Word, message &&& 0x000000F0 = 0x000000E0 →
    decode (.decode message timing) =
        .pitchWheel (message.extractLsb' 0 4) (message.extractLsb' 8 7) (message.extractLsb' 16 7) timing ∧
      ((message.extractLsb' 16 7 ++ message.extractLsb' 8 7 : BitVec 14)).setWidth 32 =
        ((message &&& 0x007F0000) >>> 9) ||| ((message &&& 0x00007F00) >>> 8)) ∧
  ∀ (channel : Channel) (lsb msb : BitVec 7) (timing : Word) (s : State),
    Gives (exec (.pitchWheel channel lsb msb timing) s) s s.prog s.filter
      (some (.pitchWheel channel (msb ++ lsb)))
      (if enabledIn s.filter .pitchWheel then some (.pitchWheel channel (msb ++ lsb)) else none)

/-- R130: `SONGPOSITION` reports the 12-bit beats and six clocks for each, without wrapping; it dispatches nothing. -/
def Obligations.SongPositionIsDecodeOnly : Prop :=
  (∀ message timing : Word, message &&& 0x000000FF = 0x000000F2 →
    decode (.decode message timing) = .songPosition (message.extractLsb' 8 12) timing) ∧
  ∀ (beats : BitVec 12) (timing : Word) (s : State), ∃ clocks : BitVec 15, clocks.toNat = beats.toNat * 6 ∧
    Gives (exec (.songPosition beats timing) s) s s.prog s.filter (some (.songPosition beats clocks)) none

/-- R131: `SONGSELECT` reports the 8-bit song; it dispatches nothing. -/
def Obligations.SongSelectIsDecodeOnly : Prop :=
  (∀ message timing : Word, message &&& 0x000000FF = 0x000000F3 →
    decode (.decode message timing) = .songSelect (message.extractLsb' 8 8) timing) ∧
  ∀ (song : Byte) (timing : Word) (s : State),
    Gives (exec (.songSelect song timing) s) s s.prog s.filter (some (.songSelect song)) none

/-- R132 to R138: the seven data-less decode-only kinds. -/
def Obligations.DatalessKindsAreDecodeOnly : Prop :=
  (∀ message timing : Word,
    (message &&& 0x000000FF = 0x000000F6 → decode (.decode message timing) = .tuneRequest timing) ∧
    (message &&& 0x000000FF = 0x000000F8 → decode (.decode message timing) = .midiClock timing) ∧
    (message &&& 0x000000FF = 0x000000F9 → decode (.decode message timing) = .midiTick timing) ∧
    (message &&& 0x000000FF = 0x000000FA → decode (.decode message timing) = .songStart timing) ∧
    (message &&& 0x000000FF = 0x000000FB → decode (.decode message timing) = .songContinue timing) ∧
    (message &&& 0x000000FF = 0x000000FC → decode (.decode message timing) = .songStop timing) ∧
    (message &&& 0x000000FF = 0x000000FE → decode (.decode message timing) = .sensing timing)) ∧
  ∀ (timing : Word) (s : State),
    Gives (exec (.tuneRequest timing) s) s s.prog s.filter (some .tuneRequest) none ∧
    Gives (exec (.midiClock timing) s) s s.prog s.filter (some .midiClock) none ∧
    Gives (exec (.midiTick timing) s) s s.prog s.filter (some .midiTick) none ∧
    Gives (exec (.songStart timing) s) s s.prog s.filter (some .songStart) none ∧
    Gives (exec (.songContinue timing) s) s s.prog s.filter (some .songContinue) none ∧
    Gives (exec (.songStop timing) s) s s.prog s.filter (some .songStop) none ∧
    Gives (exec (.sensing timing) s) s s.prog s.filter (some .sensing) none

/-- R139: the Reset message is always dispatched and resets nothing. -/
def Obligations.ResetMessageIsNeverMasked : Prop :=
  (∀ message timing : Word, message &&& 0x000000FF = 0x000000FF →
    decode (.decode message timing) = .reset timing) ∧
  ∀ (timing : Word) (s : State),
    Gives (exec (.reset timing) s) s s.prog s.filter (some .reset) (some .reset)

/-- R140: an unlisted status byte is no error: the step completes, dispatches nothing and writes nothing. The rule gives
`UNHANDLED` no operand; that the instruction carries the status byte is the model's choice (notes/assumptions/4.md). -/
def Obligations.UnhandledWordsAreDroppedSilently : Prop :=
  (∀ message timing : Word,
    (message &&& 0x00000080 = 0 ∨ message &&& 0x000000FF = 0xF0 ∨ message &&& 0x000000FF = 0xF1 ∨
      message &&& 0x000000FF = 0xF4 ∨ message &&& 0x000000FF = 0xF5 ∨ message &&& 0x000000FF = 0xF7 ∨
      message &&& 0x000000FF = 0xFD) →
    decode (.decode message timing) = .unhandled (message.extractLsb' 0 8) timing) ∧
  ∀ (status : Byte) (timing : Word) (s : State),
    Gives (exec (.unhandled status timing) s) s s.prog s.filter (some .unhandled) none

/-- R160, R161: `SETFILTERS` replaces all 32 bits of `FILTER`, keeps `PROG` and gives nothing out. The 32-bit width is the
spec's decision D4. -/
def Obligations.SetFiltersReplacesTheMask : Prop :=
  (∀ mask : Word, decode (.setFilters mask) = .setFilters mask) ∧
  ∀ (mask : Word) (s : State),
    exec (.setFilters mask) s =
      .next { s with filter := mask, out := { dec := none, ev := none, evTiming := 0 } }

/-! ## Encoding -/

/-- Every well-formed instruction decodes from its canonical command, with every operand (R63 to R70, R85). That the timing
operand and the status byte of an unhandled word are operands is the model's (notes/assumptions/3.md, 4.md). -/
def Obligations.DecodeOfEncodeIsTheInstruction : Prop :=
  ∀ i : Instr, i.wellFormed = true → decode (encode i) = i

/-- Every command decodes to a well-formed instruction: none is refused (R81, R142; well-formedness is the model's check of
format `UNH`, notes/assumptions/4.md). -/
def Obligations.EveryCommandDecodesWellFormed : Prop :=
  ∀ c : Command, (decode c).wellFormed = true

/-- R80: words that differ only in bits their format ignores are the same instruction. -/
def Obligations.IgnoredBitsDoNotMatter : Prop :=
  ∀ message message' timing : Word,
    message &&& (classify message).significantBits = message' &&& (classify message).significantBits →
    decode (.decode message timing) = decode (.decode message' timing)

/-- Encoding a decoded word clears the ignored bits of its format (R63 to R70, R80) and changes nothing else: no significant
bit is dropped. For an unhandled word this is the model's: that the instruction keeps the status byte is a choice, and that
its canonical word has zeros above it is deduced (notes/assumptions/4.md); R85 writes no line for `UNHANDLED`. -/
def Obligations.EncodeOfDecodeClearsIgnoredBits : Prop :=
  ∀ message timing : Word,
    encode (decode (.decode message timing)) = .decode (message &&& (classify message).significantBits) timing

/-- R78, R79 (which the spec derives from R77): the rows of the opcode map are a partition of the message words, and each row's kind is what `classify`
says. -/
def Obligations.OpcodeRowsPartitionTheWords : Prop :=
  ∀ message : Word, ∃ r ∈ opcodeRows, r.covers message = true ∧ r.kind = classify message ∧
    ∀ r' ∈ opcodeRows, r'.covers message = true → r' = r

/-- R85 (the spec's decision D16): the canonical words, as the notation's table writes them. -/
def Obligations.CanonicalWordsAreThoseOfTheNotation : Prop :=
  (∀ (channel : Channel) (a b : Byte) (timing : Word),
    encode (.noteOff channel a b timing) =
      .decode ((b.setWidth 32 <<< 16) ||| (a.setWidth 32 <<< 8) ||| 0x80 ||| channel.setWidth 32) timing ∧
    encode (.noteOn channel a b timing) =
      .decode ((b.setWidth 32 <<< 16) ||| (a.setWidth 32 <<< 8) ||| 0x90 ||| channel.setWidth 32) timing ∧
    encode (.keyPressure channel a b timing) =
      .decode ((b.setWidth 32 <<< 16) ||| (a.setWidth 32 <<< 8) ||| 0xA0 ||| channel.setWidth 32) timing ∧
    encode (.controlChange channel a b timing) =
      .decode ((b.setWidth 32 <<< 16) ||| (a.setWidth 32 <<< 8) ||| 0xB0 ||| channel.setWidth 32) timing) ∧
  (∀ (channel : Channel) (program : Program) (timing : Word),
    encode (.programChange channel program timing) =
      .decode ((program.setWidth 32 <<< 8) ||| 0xC0 ||| channel.setWidth 32) timing ∧
    encode (.channelPressure channel timing) = .decode (0xD0 ||| channel.setWidth 32) timing) ∧
  (∀ (channel : Channel) (value : BitVec 14) (timing : Word),
    encode (.pitchWheel channel (value.extractLsb' 0 7) (value.extractLsb' 7 7) timing) =
      .decode (((value.extractLsb' 7 7).setWidth 32 <<< 16) ||| ((value.extractLsb' 0 7).setWidth 32 <<< 8) ||| 0xE0
        ||| channel.setWidth 32) timing) ∧
  (∀ (beats : BitVec 12) (song : Byte) (timing : Word),
    encode (.songPosition beats timing) = .decode ((beats.setWidth 32 <<< 8) ||| 0xF2) timing ∧
    encode (.songSelect song timing) = .decode ((song.setWidth 32 <<< 8) ||| 0xF3) timing) ∧
  (∀ timing : Word,
    encode (.tuneRequest timing) = .decode 0xF6 timing ∧ encode (.midiClock timing) = .decode 0xF8 timing ∧
    encode (.midiTick timing) = .decode 0xF9 timing ∧ encode (.songStart timing) = .decode 0xFA timing ∧
    encode (.songContinue timing) = .decode 0xFB timing ∧ encode (.songStop timing) = .decode 0xFC timing ∧
    encode (.sensing timing) = .decode 0xFE timing ∧ encode (.reset timing) = .decode 0xFF timing)

/-- R108 (which the spec derives from R74 and R106): the laws of the pitch reassembler: the value from the data bytes, and the round trip of every value. -/
def Obligations.PitchRoundTrip : Prop :=
  (∀ message timing : Word, classify message = .pitchWheel →
    ∃ (channel : Channel) (lsb msb : BitVec 7),
      decode (.decode message timing) = .pitchWheel channel lsb msb timing ∧
      (pitchValue lsb msb).toNat < 16384 ∧
      (pitchValue lsb msb).toNat =
        ((message.extractLsb' 16 8 &&& 0x7F).toNat <<< 7) + (message.extractLsb' 8 8 &&& 0x7F).toNat) ∧
  ∀ (channel : Channel) (value : BitVec 14) (timing : Word),
    ∃ lsb msb : BitVec 7,
      decode (.decode (((value.extractLsb' 7 7).setWidth 32 <<< 16) ||| ((value.extractLsb' 0 7).setWidth 32 <<< 8)
        ||| 0xE0 ||| channel.setWidth 32) timing) = .pitchWheel channel lsb msb timing ∧
      pitchValue lsb msb = value

/-- A few words of each family, written out from the formats R63 to R70 (a sanity statement). Two clauses rest on the model's
choices: that an unhandled word's instruction carries its status byte (notes/assumptions/4.md; R140 gives it no operand), and
the number that stands for a `SETFILTERS` command, `op` in bit 32 (notes/assumptions/5.md). -/
def Obligations.SomeWordsDecodeAsTheSpecWritesThem : Prop :=
  decodeTableWord 32 0x00403C80 = some (.noteOff 0 60 64 0) ∧
  decodeTableWord 32 0x000085C7 = some (.programChange 7 5 0) ∧
  decodeTableWord 32 0x004000E0 = some (.pitchWheel 0 0 64 0) ∧
  decodeTableWord 32 0x007F7FF2 = some (.songPosition 0xF7F 0) ∧
  decodeTableWord 8 0xFF = some (.reset 0) ∧
  decodeTableWord 8 0xF4 = some (.unhandled 0xF4 0) ∧
  decodeTableWord 40 0x10000000F = some (.setFilters 0x0000000F)

/-- The number of a well-formed instruction's command decodes to it, with its timing operand. The numbering of a command's
65 bits is the model's (notes/assumptions/5.md). -/
def Obligations.TableWordOfEncodedBitsIsTheInstruction : Prop :=
  ∀ i : Instr, i.wellFormed = true → decodeTableWord 65 (encodeBits i) = some i

/-- A command placed by `withFetchWord` is the one the very next step runs, from the state as it was. How a command is placed
is the model's (notes/assumptions/6.md). -/
def Obligations.PlacedWordRunsNext : Prop :=
  ∀ (s : State) (nbits w : Nat) (i : Instr), decodeTableWord nbits w = some i →
    step (s.withFetchWord nbits w) = exec i s

/-! ## One step -/

/-- The step runs the decoded command: a command on the port, `rst` not asserted, is executed as its decoding says, from
the state with the pins of this step taken (R60, R176; the port is the spec's decision D2, that the pins are taken from a
list in the state is the model's, notes/assumptions/1.md). -/
def Obligations.StepRunsTheDecodedCommand : Prop :=
  ∀ (s : State) (p : PinsIn) (rest : List PinsIn), s.inputs = p :: rest → p.rst = false → p.cmdValid = true →
    step s = exec (decode (if p.cmdOp then .setFilters p.cmdWord else .decode p.cmdWord p.cmdTiming))
      { s with inputs := rest }

/-- Hardware reset wins over a command and dispatches nothing (R210 to R212, decision D12). -/
def Obligations.HardwareResetOverridesTheCommand : Prop :=
  ∀ (s : State) (p : PinsIn) (rest : List PinsIn), s.inputs = p :: rest → p.rst = true →
    step s = .next { prog := 0, filter := 0x0000000B, inputs := rest, out := { dec := none, ev := none, evTiming := 0 } }

/-- With no command accepted the step is idle: the state is unchanged and no output is valid (R176); the same when the host
presents nothing more (R178). -/
def Obligations.IdleStepChangesNothing : Prop :=
  (∀ (s : State) (p : PinsIn) (rest : List PinsIn), s.inputs = p :: rest → p.rst = false → p.cmdValid = false →
    step s = .next { s with inputs := rest, out := { dec := none, ev := none, evTiming := 0 } }) ∧
  ∀ s : State, s.inputs = [] → step s = .next { s with out := { dec := none, ev := none, evTiming := 0 } }

/-- The reset state (R30, R210): `PROG` = 0, `FILTER` = 0x0000000B, which is the set of categories Note, ControlChange and
PitchWheel. That nothing is presented and nothing driven is the model's choice (notes/assumptions/1.md, 2.md). -/
def Obligations.ResetStateHasTheDefaultMask : Prop :=
  State.reset.prog = 0 ∧ State.reset.filter = 0x0000000B ∧ State.reset.inputs = [] ∧
  State.reset.out = { dec := none, ev := none, evTiming := 0 } ∧
  ∀ c : Category,
    enabledIn State.reset.filter c = decide (c = .note ∨ c = .controlChange ∨ c = .pitchWheel)

/-- R163, R27: the flag of each category in `FILTER` (bit positions are the spec's decision D5). -/
def Obligations.CategoryFlagsAreBitsOfFilter : Prop :=
  ∀ filter : Word,
    enabledIn filter .note = filter.getLsbD 0 ∧ enabledIn filter .controlChange = filter.getLsbD 1 ∧
    enabledIn filter .programChange = filter.getLsbD 2 ∧ enabledIn filter .pitchWheel = filter.getLsbD 3 ∧
    enabledIn filter .song = filter.getLsbD 4 ∧ enabledIn filter .midiSync = filter.getLsbD 5

/-! ## Rules of the whole block -/

/-- R13: every step, and every instruction in every state, has a next state. -/
def Obligations.EveryStepCompletes : Prop :=
  (∀ s : State, Completes (step s)) ∧ ∀ (i : Instr) (s : State), Completes (exec i s)

/-- R191: nothing faults and nothing is refused, and what each of the three situations does instead: an unrecognized status
byte is dropped, the bits 31:24 are ignored, and a filtered event changes neither the decode result nor the registers.
That the refusal type has a constructor to leave unused is the interface's (notes/assumptions/9.md). -/
def Obligations.NoSituationIsAFaultOrARefusal : Prop :=
  (∀ s : State, (∀ r : Fault, step s ≠ .fault r) ∧ (∀ r : Refusal, step s ≠ .refused r) ∧
    step s = .next (totalStep s)) ∧
  (∀ (i : Instr) (s : State), (∀ r : Fault, exec i s ≠ .fault r) ∧ ∀ r : Refusal, exec i s ≠ .refused r) ∧
  (∀ (message timing : Word) (s : State), classify message = .unhandled →
    Gives (exec (decode (.decode message timing)) s) s s.prog s.filter (some .unhandled) none) ∧
  (∀ message message' timing : Word, message &&& 0x00FFFFFF = message' &&& 0x00FFFFFF →
    decode (.decode message timing) = decode (.decode message' timing)) ∧
  ∀ (message timing mask : Word) (s : State), ∃ t t', exec (decode (.decode message timing)) s = .next t ∧
    exec (decode (.decode message timing)) { s with filter := mask } = .next t' ∧
    t'.out.dec = t.out.dec ∧ t'.prog = t.prog ∧ t'.filter = mask ∧ t.filter = s.filter ∧
    (t'.out.ev = t.out.ev ∨ t'.out.ev = none ∨ t.out.ev = none)

/-- R164: which kinds dispatch under which mask, and which variant each dispatches. -/
def Obligations.TheGateTable : Prop :=
  ∀ (message timing : Word) (s : State), ∃ t, exec (decode (.decode message timing)) s = .next t ∧
    t.out.ev.isSome = dispatchesUnder s.filter (classify message) ∧
    ∀ e, t.out.ev = some e → e.kind = classify message

/-- R173: an event's timing sideband is the command's timing value, and it is 0 when there is no event (decision D10). -/
def Obligations.EventTimingIsPassedThrough : Prop :=
  ∀ (i : Instr) (s : State), ∃ t, exec i s = .next t ∧
    t.out.evTiming = if t.out.ev.isSome then (encode i).timing else 0

/-- R25, R29: no instruction but `PROGRAMCHANGE` changes `PROG`, none but `SETFILTERS` changes `FILTER`, and none touches
what the host presents. -/
def Obligations.OnlyTwoInstructionsWriteRegisters : Prop :=
  ∀ (i : Instr) (s : State), ∃ t, exec i s = .next t ∧ t.inputs = s.inputs ∧
    (t.prog ≠ s.prog → ∃ channel timing, i = .programChange channel t.prog timing) ∧
    (t.filter ≠ s.filter → i = .setFilters t.filter)

/-- R45 (which the spec derives from R44, R25 and R104): repeating a command other than `PROGRAMCHANGE` gives the same state and the same results again; repeating a
`PROGRAMCHANGE` reports its own program as the old one. -/
def Obligations.RepeatingACommand : Prop :=
  (∀ (i : Instr) (s t : State), i.kind? ≠ some .programChange → exec i s = .next t → exec i t = .next t) ∧
  ∀ (channel : Channel) (program : Program) (timing : Word) (s t : State),
    exec (.programChange channel program timing) s = .next t →
    Gives (exec (.programChange channel program timing) t) t program s.filter
      (some (.programChange channel program program))
      (if enabledIn s.filter .programChange then some (.programChange channel program program) else none)

/-- R26, R217, R219 (the single scalar is the source's default, kept by the spec's decision D11): a second `PROGRAMCHANGE`, on any channel and after any number of
idle steps, reports the program of the first as old. -/
def Obligations.ProgIsSharedByTheChannels : Prop :=
  ∀ (s : State) (message message' timing timing' : Word) (idles : List PinsIn),
    classify message = .programChange → classify message' = .programChange →
    (∀ p ∈ idles, p.rst = false ∧ p.cmdValid = false) →
    s.inputs = .presenting (.decode message timing) :: idles ++ [.presenting (.decode message' timing')] →
    ∃ t, Host.Core.run core (idles.length + 2) s = .next t ∧
      t.out.dec = some (.programChange (message'.extractLsb' 0 4) (message'.extractLsb' 8 7) (message.extractLsb' 8 7))

/-- The outputs of a step depend on `PROG`, `FILTER` and the pins alone: what was driven before is read by no step (R21,
R33, R168). -/
def Obligations.OutputsAreNotState : Prop :=
  ∀ (s : State) (o : Outputs), step { s with out := o } = step s

/-- R21: every observable behaviour is a function of the pair `(PROG, FILTER)` and of what is presented after it. A command's
step is a function of the pair and the command alone, the one R177 writes out; two states with one pair, to which the same
is presented, do the same in every run, whatever was driven before. That what is presented stands in a list of the state,
and what is driven in a field of it, is the model's (notes/assumptions/1.md, 2.md). -/
def Obligations.BehaviourIsAFunctionOfThePairAndTheCommands : Prop :=
  (∀ (s : State) (c : Command),
    step (s.presented c) =
      .next { toArch := (commandStep s.toArch c).1, inputs := s.inputs, out := (commandStep s.toArch c).2 }) ∧
  (∀ (a : Arch) (c : Command), commandStep a c = Reference.step a c) ∧
  ∀ (n : Nat) (s s' : State), s.toArch = s'.toArch → s.inputs = s'.inputs →
    trace n s = trace n s' ∧
      ∃ t t', Host.Core.run core n s = .next t ∧ Host.Core.run core n s' = .next t' ∧ t.toArch = t'.toArch ∧
        t.inputs = t'.inputs

/-! ## The pins -/

/-- R172: the event tag is `message[6:4]` of the word that produced the event, and the tag 5 is never driven; without an
event every pin of the event port is 0 (decisions D7, D22). -/
def Obligations.EventTagIsReadOffTheStatusByte : Prop :=
  ∀ (message timing : Word) (s : State), ∃ t, exec (decode (.decode message timing)) s = .next t ∧
    (t.out.ev.isSome = true → t.out.eventPins.valid = true ∧ t.out.eventPins.tag = message.extractLsb' 4 3 ∧
      t.out.eventPins.tag ≠ 5) ∧
    (t.out.ev.isSome = false →
      t.out.eventPins = { valid := false, tag := 0, channel := 0, a := 0, b := 0, timing := 0 })

/-- R175: the code on the decode-status port is 0 for an unhandled word, `{1, message[3:0]}` for a status byte of class
0xF, and `{0, message[7:4]}` otherwise; the port is valid in every `DECODE` step (decisions D8, D22). -/
def Obligations.DecodeKindIsReadOffTheStatusByte : Prop :=
  ∀ (message timing : Word) (s : State), ∃ t, exec (decode (.decode message timing)) s = .next t ∧
    t.out.decodePins.valid = true ∧
    t.out.decodePins.kind =
      if classify message = .unhandled then 0
      else if message.extractLsb' 4 4 = 0xF#4 then 1#1 ++ message.extractLsb' 0 4
      else 0#1 ++ message.extractLsb' 4 4

/-- The pins are a faithful encoding of the results: equal pins, equal event and equal decode result (R172, R175, the spec's
decisions D7, D8). -/
def Obligations.PinsDetermineTheResults : Prop :=
  ∀ o o' : Outputs,
    (o.eventPins = o'.eventPins → o.ev = o'.ev) ∧ (o.decodePins = o'.decodePins → o.dec = o'.dec)

/-- The ports' invariant at reset. That nothing is driven at reset is the model's choice (notes/assumptions/2.md). -/
def Obligations.ResetPortsAreCoherent : Prop := PortsCoherent State.reset

/-- Every step establishes the ports' invariant, whatever the state before, and so keeps it. -/
def Obligations.StepKeepsPortsCoherent : Prop :=
  ∀ s t : State, step s = .next t → PortsCoherent t

/-! ## Runs -/

/-- One step on any pins is the step of R177, with reset and idle steps as R176 and R211 say. -/
def Obligations.StepRefinesTheWrittenOutStep : Prop :=
  ∀ (s : State) (p : PinsIn) (rest : List PinsIn), s.inputs = p :: rest →
    ∃ t, step s = .next t ∧ t.pair = (Reference.pinsStep s.pair p).1 ∧ t.out = (Reference.pinsStep s.pair p).2 ∧
      t.inputs = rest

/-- R47, R178: a run is the left fold of that step over what the host presents: the pair it ends in and the outputs of its
steps in order. -/
def Obligations.RunIsTheFoldOfTheStep : Prop :=
  ∀ (pins rest : List PinsIn) (s : State), s.inputs = pins ++ rest →
    ∃ t, Host.Core.run core pins.length s = .next t ∧ t.pair = (Reference.run s.pair pins).1 ∧
      trace pins.length s = (Reference.run s.pair pins).2 ∧ t.inputs = rest

/-- R24, R29: after a run `PROG` is the program of the last `PROGRAMCHANGE` since hardware reset, filtered or not, on any
channel, and `FILTER` the mask of the last `SETFILTERS` since hardware reset. -/
def Obligations.RegistersHoldTheLastWritten : Prop :=
  ∀ (pins rest : List PinsIn) (s : State), s.inputs = pins ++ rest →
    ∃ t, Host.Core.run core pins.length s = .next t ∧ t.prog = lastProgram s.prog pins.reverse ∧
      t.filter = lastMask s.filter pins.reverse

/-- R21, R213: every pair `(PROG, FILTER)` is reachable from the reset state. -/
def Obligations.EveryPairIsReachableFromReset : Prop :=
  ∀ (prog : Program) (filter : Word), ∃ (pins : List PinsIn) (t : State),
    Host.Core.run core pins.length { State.reset with inputs := pins } = .next t ∧
      t.prog = prog ∧ t.filter = filter ∧ t.inputs = []

/-- R28, R203 (which the spec derives from R25, R27, R29 and R164): two states are indistinguishable by every sequence of pins exactly when they agree on `PROG` and on
`FILTER[3:0]`. -/
def Obligations.ObservableStateIsProgAndFourFlags : Prop :=
  ∀ s t : State,
    (∀ pins : List PinsIn,
      trace pins.length { s with inputs := pins } = trace pins.length { t with inputs := pins }) ↔
    s.prog = t.prog ∧ s.filter.extractLsb' 0 4 = t.filter.extractLsb' 0 4

/-- R173 (the sideband is the spec's decision D10): runs that differ only in timing values go through the same pairs and give the same decode results and events. -/
def Obligations.TimingInfluencesNothingElse : Prop :=
  ∀ (pins pins' : List PinsIn) (s : State),
    List.Forall₂ (fun p p' => ∃ timing, p' = p.withTiming timing) pins pins' →
    (trace pins.length { s with inputs := pins }).map (fun o => (o.dec, o.ev)) =
        (trace pins'.length { s with inputs := pins' }).map (fun o => (o.dec, o.ev)) ∧
      ∃ t t', Host.Core.run core pins.length { s with inputs := pins } = .next t ∧
        Host.Core.run core pins'.length { s with inputs := pins' } = .next t' ∧ t.pair = t'.pair

/-- R200: whatever the interleaving, each of several decoders ends where its own steps alone would take it. That the
decoders are a list, that they step one at a time by a schedule, and that a position naming no decoder changes nothing, is
the model's choice (notes/assumptions/8.md). -/
def Obligations.DecodersAreIndependent : Prop :=
  ∀ (schedule : List Nat) (system : List State), ∃ system', systemRun schedule system = .next system' ∧
    system'.length = system.length ∧
    ∀ (k : Nat) (s : State), system[k]? = some s →
      ∃ t, Host.Core.run core (schedule.count k) s = .next t ∧ system'[k]? = some t
end

