-- ==== Sys2Proof/Laws/Decode.lean ====
section
/-! SUPPORT. The classification in terms of the status byte, the fields of encoded words, and commands as pins and as
numbers. -/

namespace Sys2Proof

/-! ## Classification -/

/-- `classify` on the status byte alone: the handier form of R77. -/
def classifyStatus (status : Byte) : Kind := classify (status.setWidth 32)

/-- A mask inside the low byte reads only the status byte. -/
theorem and_low_mask (message : Word) (m : Byte) :
    message &&& m.setWidth 32 = (statusField message).setWidth 32 &&& m.setWidth 32 := by
  ext i hi
  by_cases h : i < 8
  · simp [statusField, h, BitVec.getLsbD_eq_getElem hi]
  · have h8 : 8 ≤ i := by omega
    simp [statusField, h8]

/-- "`classify` reads only `message[7:0]`" (R77). -/
theorem classify_eq_status (message : Word) : classify message = classifyStatus (statusField message) := by
  have h1 := and_low_mask message 0xF0
  have h2 := and_low_mask message 0xFF
  simp only [BitVec.reduceSetWidth] at h1 h2
  simp only [classifyStatus, classify, classifySystem, h1, h2]

/-- The status bytes classified as unhandled are those of format `UNH` (R70). -/
theorem classifyStatus_unhandled (status : Byte) :
    (classifyStatus status = .unhandled) = (unhandledStatus status = true) := by
  revert status; decide

/-- A classification by status byte is one of the whole word. -/
theorem classify_of_status {message : Word} {status : Byte} (h : statusField message = status) :
    classify message = classifyStatus status := by
  rw [classify_eq_status, h]

/-! ## Fields of the encoded words -/

section fields

variable (cls : BitVec 4) (channel : Channel) (first second status : Byte) (program lsb msb : BitVec 7)
  (beats : BitVec 12)

@[simp] theorem statusField_wordCV2 : statusField (wordCV2 cls channel first second) = cls ++ channel := by
  simp (disch := decide) only [statusField, wordCV2, BitVec.extractLsb'_append_eq_of_add_le, BitVec.extractLsb'_eq_self]

@[simp] theorem channelField_wordCV2 : channelField (wordCV2 cls channel first second) = channel := by
  simp (disch := decide) only [channelField, wordCV2, BitVec.extractLsb'_append_eq_of_add_le, BitVec.extractLsb'_eq_self]

@[simp] theorem data1Field_wordCV2 : data1Field (wordCV2 cls channel first second) = first := by
  simp (disch := decide) only [data1Field, wordCV2, BitVec.extractLsb'_append_eq_of_add_le,
    BitVec.extractLsb'_append_eq_of_le]
  exact BitVec.extractLsb'_eq_self

@[simp] theorem data2Field_wordCV2 : data2Field (wordCV2 cls channel first second) = second := by
  simp (disch := decide) only [data2Field, wordCV2, BitVec.extractLsb'_append_eq_of_add_le,
    BitVec.extractLsb'_append_eq_of_le]
  exact BitVec.extractLsb'_eq_self

@[simp] theorem statusField_wordPC : statusField (wordPC channel program) = 0xC#4 ++ channel := by
  simp (disch := decide) only [statusField, wordPC, BitVec.extractLsb'_append_eq_of_add_le, BitVec.extractLsb'_eq_self]

@[simp] theorem channelField_wordPC : channelField (wordPC channel program) = channel := by
  simp (disch := decide) only [channelField, wordPC, BitVec.extractLsb'_append_eq_of_add_le, BitVec.extractLsb'_eq_self]

@[simp] theorem low7Field_wordPC : low7Field (wordPC channel program) = program := by
  simp (disch := decide) only [low7Field, wordPC, BitVec.extractLsb'_append_eq_of_add_le,
    BitVec.extractLsb'_append_eq_of_le]
  exact BitVec.extractLsb'_eq_self

@[simp] theorem statusField_wordCP : statusField (wordCP channel) = 0xD#4 ++ channel := by
  simp (disch := decide) only [statusField, wordCP, BitVec.extractLsb'_append_eq_of_add_le, BitVec.extractLsb'_eq_self]

@[simp] theorem channelField_wordCP : channelField (wordCP channel) = channel := by
  simp (disch := decide) only [channelField, wordCP, BitVec.extractLsb'_append_eq_of_add_le, BitVec.extractLsb'_eq_self]

@[simp] theorem statusField_wordPB : statusField (wordPB channel lsb msb) = 0xE#4 ++ channel := by
  simp (disch := decide) only [statusField, wordPB, BitVec.extractLsb'_append_eq_of_add_le, BitVec.extractLsb'_eq_self]

@[simp] theorem channelField_wordPB : channelField (wordPB channel lsb msb) = channel := by
  simp (disch := decide) only [channelField, wordPB, BitVec.extractLsb'_append_eq_of_add_le, BitVec.extractLsb'_eq_self]

@[simp] theorem low7Field_wordPB : low7Field (wordPB channel lsb msb) = lsb := by
  simp (disch := decide) only [low7Field, wordPB, BitVec.extractLsb'_append_eq_of_add_le,
    BitVec.extractLsb'_append_eq_of_le]
  exact BitVec.extractLsb'_eq_self

@[simp] theorem high7Field_wordPB : high7Field (wordPB channel lsb msb) = msb := by
  simp (disch := decide) only [high7Field, wordPB, BitVec.extractLsb'_append_eq_of_add_le,
    BitVec.extractLsb'_append_eq_of_le]
  exact BitVec.extractLsb'_eq_self

@[simp] theorem statusField_wordSP : statusField (wordSP beats) = 0xF2#8 := by
  simp (disch := decide) only [statusField, wordSP, BitVec.extractLsb'_append_eq_of_add_le, BitVec.extractLsb'_eq_self]

@[simp] theorem beatsField_wordSP : beatsField (wordSP beats) = beats := by
  simp (disch := decide) only [beatsField, wordSP, BitVec.extractLsb'_append_eq_of_add_le,
    BitVec.extractLsb'_append_eq_of_le]
  exact BitVec.extractLsb'_eq_self

@[simp] theorem statusField_wordSS : statusField (wordSS first) = 0xF3#8 := by
  simp (disch := decide) only [statusField, wordSS, BitVec.extractLsb'_append_eq_of_add_le, BitVec.extractLsb'_eq_self]

@[simp] theorem data1Field_wordSS : data1Field (wordSS first) = first := by
  simp (disch := decide) only [data1Field, wordSS, BitVec.extractLsb'_append_eq_of_add_le,
    BitVec.extractLsb'_append_eq_of_le]
  exact BitVec.extractLsb'_eq_self

@[simp] theorem statusField_wordStatus : statusField (wordStatus status) = status := by
  simp (disch := decide) only [statusField, wordStatus, BitVec.extractLsb'_append_eq_of_add_le,
    BitVec.extractLsb'_eq_self]

/-- The class nibble of a channel-voice status byte decides the kind, whatever the channel (R62, R77). -/
theorem classifyStatus_channelVoice :
    classifyStatus (0x8#4 ++ channel) = .noteOff ∧ classifyStatus (0x9#4 ++ channel) = .noteOn ∧
      classifyStatus (0xA#4 ++ channel) = .keyPressure ∧ classifyStatus (0xB#4 ++ channel) = .controlChange ∧
      classifyStatus (0xC#4 ++ channel) = .programChange ∧ classifyStatus (0xD#4 ++ channel) = .channelPressure ∧
      classifyStatus (0xE#4 ++ channel) = .pitchWheel := by
  revert channel; decide

/-! ## Encoded words bit by bit, the fields from the low end up -/

theorem wordCV2_getLsbD (i : Nat) : (wordCV2 cls channel first second).getLsbD i =
    if i < 8 then (if i < 4 then channel.getLsbD i else cls.getLsbD (i - 4))
    else if i - 8 < 8 then first.getLsbD (i - 8)
    else if i - 8 - 8 < 8 then second.getLsbD (i - 8 - 8) else false := by
  rw [wordCV2, BitVec.getLsbD_append, BitVec.getLsbD_append, BitVec.getLsbD_append, BitVec.getLsbD_append,
    BitVec.getLsbD_zero]

theorem wordPC_getLsbD (i : Nat) : (wordPC channel program).getLsbD i =
    if i < 8 then (if i < 4 then channel.getLsbD i else (0xC#4).getLsbD (i - 4))
    else if i - 8 < 7 then program.getLsbD (i - 8) else false := by
  rw [wordPC, BitVec.getLsbD_append, BitVec.getLsbD_append, BitVec.getLsbD_append, BitVec.getLsbD_zero]

theorem wordCP_getLsbD (i : Nat) : (wordCP channel).getLsbD i =
    if i < 8 then (if i < 4 then channel.getLsbD i else (0xD#4).getLsbD (i - 4)) else false := by
  rw [wordCP, BitVec.getLsbD_append, BitVec.getLsbD_append, BitVec.getLsbD_zero]

theorem wordPB_getLsbD (i : Nat) : (wordPB channel lsb msb).getLsbD i =
    if i < 8 then (if i < 4 then channel.getLsbD i else (0xE#4).getLsbD (i - 4))
    else if i - 8 < 7 then lsb.getLsbD (i - 8)
    else if i - 8 - 7 < 1 then false
    else if i - 8 - 7 - 1 < 7 then msb.getLsbD (i - 8 - 7 - 1) else false := by
  rw [wordPB, BitVec.getLsbD_append, BitVec.getLsbD_append, BitVec.getLsbD_append, BitVec.getLsbD_append,
    BitVec.getLsbD_append, BitVec.getLsbD_zero, BitVec.getLsbD_zero]

theorem wordSP_getLsbD (i : Nat) : (wordSP beats).getLsbD i =
    if i < 8 then (0xF2#8).getLsbD i else if i - 8 < 12 then beats.getLsbD (i - 8) else false := by
  rw [wordSP, BitVec.getLsbD_append, BitVec.getLsbD_append, BitVec.getLsbD_zero]

theorem wordSS_getLsbD (i : Nat) : (wordSS first).getLsbD i =
    if i < 8 then (0xF3#8).getLsbD i else if i - 8 < 8 then first.getLsbD (i - 8) else false := by
  rw [wordSS, BitVec.getLsbD_append, BitVec.getLsbD_append, BitVec.getLsbD_zero]

theorem wordStatus_getLsbD (i : Nat) : (wordStatus status).getLsbD i =
    if i < 8 then status.getLsbD i else false := by
  rw [wordStatus, BitVec.getLsbD_append, BitVec.getLsbD_zero]

end fields

/-- What the kind of a message says of its status byte (R62, R77): the class nibble of a channel-voice kind, the whole
byte of a named system kind. -/
def kindHasStatus : Kind → Byte → Bool
  | .noteOff, status => status.extractLsb' 4 4 == 0x8#4
  | .noteOn, status => status.extractLsb' 4 4 == 0x9#4
  | .keyPressure, status => status.extractLsb' 4 4 == 0xA#4
  | .controlChange, status => status.extractLsb' 4 4 == 0xB#4
  | .programChange, status => status.extractLsb' 4 4 == 0xC#4
  | .channelPressure, status => status.extractLsb' 4 4 == 0xD#4
  | .pitchWheel, status => status.extractLsb' 4 4 == 0xE#4
  | .songPosition, status => status == 0xF2#8
  | .songSelect, status => status == 0xF3#8
  | .tuneRequest, status => status == 0xF6#8
  | .midiClock, status => status == 0xF8#8
  | .midiTick, status => status == 0xF9#8
  | .songStart, status => status == 0xFA#8
  | .songContinue, status => status == 0xFB#8
  | .songStop, status => status == 0xFC#8
  | .sensing, status => status == 0xFE#8
  | .reset, status => status == 0xFF#8
  | .unhandled, status => unhandledStatus status

theorem kindHasStatus_classifyStatus (status : Byte) : kindHasStatus (classifyStatus status) status = true := by
  revert status; decide

/-- The instruction of a message has the message's kind. -/
theorem decode_kind (message timing : Word) : (decode (.decode message timing)).kind? = some (classify message) := by
  show (decodeMessage message timing).kind? = some (classify message)
  unfold decodeMessage
  cases classify message <;> rfl

/-! ## Commands -/

@[simp] theorem Command.ofFields_op_word_timing (c : Command) : Command.ofFields c.op c.word c.timing = c := by
  cases c <;> rfl

/-- The 65 bits of a command are below 2 ^ 65. -/
theorem Command.toBits_lt (c : Command) : c.toBits < 2 ^ 65 := by
  have hw := c.word.isLt
  have ht := c.timing.isLt
  unfold Command.toBits
  split <;> omega

/-- A command is read back from its 65 bits (R60). -/
theorem Command.ofBits_toBits (c : Command) : Command.ofBits c.toBits = c := by
  cases c with
  | decode message timing =>
    have hm := message.isLt
    have ht := timing.isLt
    simp only [Command.ofBits, Command.toBits, Command.op, Command.word, Command.timing, Command.ofFields,
      Bool.false_eq_true, ↓reduceIte, Nat.add_zero]
    have hb : (message.toNat + timing.toNat * 2 ^ 33).testBit 32 = false := by
      rw [Nat.testBit_eq_decide_div_mod_eq, decide_eq_false_iff_not]; omega
    rw [hb, if_neg Bool.false_ne_true]
    congr 1 <;> apply BitVec.eq_of_toNat_eq <;> rw [BitVec.toNat_ofNat] <;> omega
  | setFilters mask =>
    have hm := mask.isLt
    have hz : (0 : Word).toNat = 0 := rfl
    simp only [Command.ofBits, Command.toBits, Command.op, Command.word, Command.timing, Command.ofFields, ↓reduceIte,
      hz, Nat.zero_mul, Nat.add_zero]
    have hb : (mask.toNat + 2 ^ 32).testBit 32 = true := by
      rw [Nat.testBit_eq_decide_div_mod_eq, decide_eq_true_iff]; omega
    rw [hb, if_pos rfl]
    refine congrArg Command.setFilters (BitVec.eq_of_toNat_eq ?_)
    rw [BitVec.toNat_ofNat]
    omega

end Sys2Proof
end

