-- ==== Sys2Proof/Laws/Gate.lean ====
section
/-! SUPPORT. What the gate and the operand assembly do, once. -/

namespace Sys2Proof.Machine

/-- The gate either passes the event, its flag being set, or drops it, its flag being clear. -/
theorem gated_cases (s : State) (c : Category) (e : Event) :
    (enabledIn s.filter c = true ∧ s.gated c e = some e) ∨ (enabledIn s.filter c = false ∧ s.gated c e = none) := by
  unfold State.gated gate
  cases h : enabledIn s.filter c <;> simp

/-- What passes the gate is the event itself. -/
theorem gated_eq_some {s : State} {c : Category} {e e' : Event} (h : s.gated c e = some e') : e' = e := by
  rcases gated_cases s c e with ⟨-, hg⟩ | ⟨-, hg⟩ <;> simp_all

/-- The gate tests one bit of the mask and nothing else. -/
theorem gated_congr {s t : State} {c : Category} (h : s.filter.getLsbD c.bit = t.filter.getLsbD c.bit) (e : Event) :
    s.gated c e = t.gated c e := by
  have hc : enabledIn s.filter c = enabledIn t.filter c := h
  simp only [State.gated, gate, hc]

/-- A flag of a mask written as a set of categories is set exactly when its category is listed. -/
theorem enabledIn_maskOf (cs : List Category) (c : Category) : enabledIn (maskOf cs) c = decide (c ∈ cs) := by
  induction cs with
  | nil => simp [maskOf, enabledIn]
  | cons d ds ih =>
    have hd : (BitVec.twoPow 32 d.bit).getLsbD c.bit = decide (c = d) := by cases c <;> cases d <;> decide
    have ih' : (maskOf ds).getLsbD c.bit = decide (c ∈ ds) := ih
    unfold enabledIn maskOf
    rw [BitVec.getLsbD_or, hd, ih', ← Bool.decide_or]
    simp only [List.mem_cons]

/-- The bits of the pitch value: the low seven are the `lsb`, the high seven the `msb` (R74). -/
theorem pitchValue_getLsbD (lsb msb : BitVec 7) (i : Nat) :
    (pitchValue lsb msb).getLsbD i = if i < 7 then lsb.getLsbD i else msb.getLsbD (i - 7) := by
  rw [pitchValue, BitVec.getLsbD_append]

/-- The product of the song position does not wrap (R75). -/
theorem songClocks_toNat (beats : BitVec 12) : (songClocks beats).toNat = beats.toNat * 6 := by
  have h : beats.toNat < 4096 := beats.isLt
  have h6 : (6 : BitVec 15).toNat = 6 := rfl
  simp only [songClocks, clocksPerBeat, BitVec.toNat_mul, BitVec.toNat_setWidth, h6]
  omega

end Sys2Proof.Machine
end

