-- ==== Sys2Proof/Laws/PerInstr.lean ====
section
/-! SUPPORT. Facts about every instruction as a term, one lemma per constructor. -/

/-- The canonical command of a well-formed instruction is a `DECODE` of a word of the instruction's kind, and for
`SETFILTERS` it is not a `DECODE`. -/
def Sys2Proof.Laws.EncodedKind.Statement (i : Sys2Proof.Instr) : Prop :=
  i.wellFormed = true →
    (i.kind? = none ∧ (Sys2Proof.encode i).op = true) ∨
      ((Sys2Proof.encode i).op = false ∧ i.kind? = some (Sys2Proof.classify (Sys2Proof.encode i).word))

namespace Sys2Proof.Laws.EncodedKind

/-- A word of the right status byte is enough. -/
theorem of_status {i : Instr} {message timing : Word} {k : Kind} (he : encode i = .decode message timing)
    (hk : i.kind? = some k) (hs : classifyStatus (statusField message) = k) : Statement i := by
  intro _
  refine .inr ⟨by rw [he]; rfl, ?_⟩
  rw [he, hk, Command.word, classify_eq_status, hs]

theorem noteOff (channel : Channel) (note velocity : Byte) (timing : Word) :
    Statement (.noteOff channel note velocity timing) :=
  of_status rfl rfl (by rw [statusField_wordCV2]; exact (classifyStatus_channelVoice channel).1)

theorem noteOn (channel : Channel) (note velocity : Byte) (timing : Word) :
    Statement (.noteOn channel note velocity timing) :=
  of_status rfl rfl (by rw [statusField_wordCV2]; exact (classifyStatus_channelVoice channel).2.1)

theorem keyPressure (channel : Channel) (note pressure : Byte) (timing : Word) :
    Statement (.keyPressure channel note pressure timing) :=
  of_status rfl rfl (by rw [statusField_wordCV2]; exact (classifyStatus_channelVoice channel).2.2.1)

theorem controlChange (channel : Channel) (controller value : Byte) (timing : Word) :
    Statement (.controlChange channel controller value timing) :=
  of_status rfl rfl (by rw [statusField_wordCV2]; exact (classifyStatus_channelVoice channel).2.2.2.1)

theorem programChange (channel : Channel) (program : Program) (timing : Word) :
    Statement (.programChange channel program timing) :=
  of_status rfl rfl (by rw [statusField_wordPC]; exact (classifyStatus_channelVoice channel).2.2.2.2.1)

theorem channelPressure (channel : Channel) (timing : Word) : Statement (.channelPressure channel timing) :=
  of_status rfl rfl (by rw [statusField_wordCP]; exact (classifyStatus_channelVoice channel).2.2.2.2.2.1)

theorem pitchWheel (channel : Channel) (lsb msb : BitVec 7) (timing : Word) :
    Statement (.pitchWheel channel lsb msb timing) :=
  of_status rfl rfl (by rw [statusField_wordPB]; exact (classifyStatus_channelVoice channel).2.2.2.2.2.2)

theorem songPosition (beats : BitVec 12) (timing : Word) : Statement (.songPosition beats timing) :=
  of_status rfl rfl (by rw [statusField_wordSP]; decide)

theorem songSelect (song : Byte) (timing : Word) : Statement (.songSelect song timing) :=
  of_status rfl rfl (by rw [statusField_wordSS]; decide)

theorem tuneRequest (timing : Word) : Statement (.tuneRequest timing) :=
  of_status rfl rfl (by rw [statusField_wordStatus]; decide)

theorem midiClock (timing : Word) : Statement (.midiClock timing) :=
  of_status rfl rfl (by rw [statusField_wordStatus]; decide)

theorem midiTick (timing : Word) : Statement (.midiTick timing) :=
  of_status rfl rfl (by rw [statusField_wordStatus]; decide)

theorem songStart (timing : Word) : Statement (.songStart timing) :=
  of_status rfl rfl (by rw [statusField_wordStatus]; decide)

theorem songContinue (timing : Word) : Statement (.songContinue timing) :=
  of_status rfl rfl (by rw [statusField_wordStatus]; decide)

theorem songStop (timing : Word) : Statement (.songStop timing) :=
  of_status rfl rfl (by rw [statusField_wordStatus]; decide)

theorem sensing (timing : Word) : Statement (.sensing timing) :=
  of_status rfl rfl (by rw [statusField_wordStatus]; decide)

theorem reset (timing : Word) : Statement (.reset timing) :=
  of_status rfl rfl (by rw [statusField_wordStatus]; decide)

theorem unhandled (status : Byte) (timing : Word) : Statement (.unhandled status timing) := fun h =>
  of_status (k := .unhandled) rfl rfl
    (by rw [statusField_wordStatus]; exact (classifyStatus_unhandled status).mpr h) h

theorem setFilters (mask : Word) : Statement (.setFilters mask) := fun _ => .inl ⟨rfl, rfl⟩

end Sys2Proof.Laws.EncodedKind
end

