-- ==== Sys2Proof/Laws/State.lean ====
section
/-! SUPPORT. One lemma per field per update of the state, so that no later proof unfolds a record update. -/

namespace Sys2Proof.Machine.State

variable (s : State)

@[simp] theorem writeProg_prog (p : Program) : (s.writeProg p).prog = p := rfl
@[simp] theorem writeProg_filter (p : Program) : (s.writeProg p).filter = s.filter := rfl
@[simp] theorem writeProg_inputs (p : Program) : (s.writeProg p).inputs = s.inputs := rfl
@[simp] theorem writeProg_out (p : Program) : (s.writeProg p).out = s.out := rfl

@[simp] theorem writeFilter_prog (m : Word) : (s.writeFilter m).prog = s.prog := rfl
@[simp] theorem writeFilter_filter (m : Word) : (s.writeFilter m).filter = m := rfl
@[simp] theorem writeFilter_inputs (m : Word) : (s.writeFilter m).inputs = s.inputs := rfl
@[simp] theorem writeFilter_out (m : Word) : (s.writeFilter m).out = s.out := rfl

@[simp] theorem decoded_prog (d : Decoded) (e : Option Event) (t : Word) : (s.decoded d e t).prog = s.prog := rfl
@[simp] theorem decoded_filter (d : Decoded) (e : Option Event) (t : Word) : (s.decoded d e t).filter = s.filter := rfl
@[simp] theorem decoded_inputs (d : Decoded) (e : Option Event) (t : Word) : (s.decoded d e t).inputs = s.inputs := rfl
@[simp] theorem decoded_dec (d : Decoded) (e : Option Event) (t : Word) : (s.decoded d e t).out.dec = some d := rfl
@[simp] theorem decoded_ev (d : Decoded) (e : Option Event) (t : Word) : (s.decoded d e t).out.ev = e := rfl
@[simp] theorem decoded_evTiming (d : Decoded) (e : Option Event) (t : Word) :
    (s.decoded d e t).out.evTiming = if e.isSome then t else 0 := rfl

@[simp] theorem silent_prog : s.silent.prog = s.prog := rfl
@[simp] theorem silent_filter : s.silent.filter = s.filter := rfl
@[simp] theorem silent_inputs : s.silent.inputs = s.inputs := rfl
@[simp] theorem silent_out : s.silent.out = Outputs.silent := rfl

@[simp] theorem idle_prog : s.idle.prog = s.prog := rfl
@[simp] theorem idle_filter : s.idle.filter = s.filter := rfl
@[simp] theorem idle_inputs : s.idle.inputs = s.inputs := rfl
@[simp] theorem idle_out : s.idle.out = Outputs.silent := rfl

@[simp] theorem hardwareReset_prog : s.hardwareReset.prog = 0 := rfl
@[simp] theorem hardwareReset_filter : s.hardwareReset.filter = 0x0000000B#32 := rfl
@[simp] theorem hardwareReset_inputs : s.hardwareReset.inputs = s.inputs := rfl
@[simp] theorem hardwareReset_out : s.hardwareReset.out = Outputs.silent := rfl

@[simp] theorem taken_prog : s.taken.prog = s.prog := rfl
@[simp] theorem taken_filter : s.taken.filter = s.filter := rfl
@[simp] theorem taken_inputs : s.taken.inputs = s.inputs.tail := rfl
@[simp] theorem taken_out : s.taken.out = s.out := rfl

@[simp] theorem presented_prog (c : Command) : (s.presented c).prog = s.prog := rfl
@[simp] theorem presented_filter (c : Command) : (s.presented c).filter = s.filter := rfl
@[simp] theorem presented_inputs (c : Command) : (s.presented c).inputs = .presenting c :: s.inputs := rfl
@[simp] theorem presented_out (c : Command) : (s.presented c).out = s.out := rfl

@[simp] theorem silent_toArch : s.silent.toArch = s.toArch := rfl
@[simp] theorem idle_toArch : s.idle.toArch = s.toArch := rfl
@[simp] theorem decoded_toArch (d : Decoded) (e : Option Event) (t : Word) : (s.decoded d e t).toArch = s.toArch := rfl
@[simp] theorem taken_toArch : s.taken.toArch = s.toArch := rfl
@[simp] theorem presented_toArch (c : Command) : (s.presented c).toArch = s.toArch := rfl
@[simp] theorem hardwareReset_toArch : s.hardwareReset.toArch = Arch.reset := rfl
@[simp] theorem reset_toArch : State.reset.toArch = Arch.reset := rfl

/-- A presented command is the one that is taken, and taking it gives the rest back. -/
@[simp] theorem presented_taken (c : Command) : (s.presented c).taken = s := rfl

end Sys2Proof.Machine.State

namespace Sys2Proof.Machine

@[simp] theorem Outputs.silent_dec : Outputs.silent.dec = none := rfl
@[simp] theorem Outputs.silent_ev : Outputs.silent.ev = none := rfl
@[simp] theorem Outputs.silent_evTiming : Outputs.silent.evTiming = 0 := rfl

end Sys2Proof.Machine
end

