-- ==== Sys2Proof/Laws/Step.lean ====
section
/-! SUPPORT. What one step can do, said once: every later proof about steps and runs cites these. -/

namespace Sys2Proof.Machine

/-- The shapes of a command's step: it gives nothing out and writes a mask, or it finishes a `DECODE`, and of those only
`PROGRAMCHANGE` goes on to write `PROG`. -/
theorem exec_shapes (i : Instr) (s : State) :
    (∃ mask, i = .setFilters mask ∧ exec i s = .next (s.silent.writeFilter mask)) ∨
      (∃ channel program timing, i = .programChange channel program timing ∧
        exec i s = .next ((s.decoded (.programChange channel program s.prog)
          (s.gated .programChange (.programChange channel program s.prog)) timing).writeProg program)) ∨
      (i.kind? ≠ some .programChange ∧ i.kind? ≠ none ∧
        ∃ dec ev timing, exec i s = .next (s.decoded dec ev timing)) := by
  cases i
  case setFilters mask => exact .inl ⟨mask, rfl, rfl⟩
  case programChange channel program timing => exact .inr (.inl ⟨channel, program, timing, rfl, rfl⟩)
  all_goals exact .inr (.inr ⟨nofun, nofun, _, _, _, rfl⟩)

/-- The three actions of a step. -/
theorem step_cases {s t : State} (h : step s = .next t) :
    (s.action = .idle ∧ t = s.taken.idle) ∨ (s.action = .hardwareReset ∧ t = s.taken.hardwareReset) ∨
      ∃ i, s.action = .run i ∧ exec i s.taken = .next t := by
  unfold step at h
  split at h
  · rename_i ha; exact .inl ⟨ha, by cases h; rfl⟩
  · rename_i ha; exact .inr (.inl ⟨ha, by cases h; rfl⟩)
  · rename_i i ha; exact .inr (.inr ⟨i, ha, h⟩)

/-- Every step answers the state of the total step. -/
theorem step_eq_next_totalStep (s : State) : step s = .next (totalStep s) := by
  unfold totalStep
  split
  · assumption
  · rename_i r _; exact nomatch r
  · rename_i r h; exact absurd h (step_ne_refused s r)

/-- The total step is the state that the step answers. -/
theorem totalStep_eq {s t : State} (h : step s = .next t) : totalStep s = t := by
  rw [step_eq_next_totalStep] at h
  exact Host.Outcome.next.inj h

/-- The pins that present a command present that command. -/
@[simp] theorem PinsIn.presenting_command (c : Command) : (PinsIn.presenting c).command = some c := by
  cases c <;> rfl

/-- The pins that present a command ask for its instruction. -/
@[simp] theorem PinsIn.presenting_action (c : Command) : (PinsIn.presenting c).action = .run (decode c) := by
  cases c <;> rfl

/-- A presented command is run in the very next step, from the state without it. -/
theorem step_presented (s : State) (c : Command) : step (s.presented c) = exec (decode c) s := by
  have ha : (s.presented c).action = .run (decode c) := PinsIn.presenting_action c
  simp only [step, ha, State.presented_taken]

/-- The ports pass through an instruction: its results and the architectural state are computed from the architectural
state, and what the host presents later is kept. -/
theorem exec_ports (i : Instr) (a : Arch) : ∃ b o, ∀ inputs out,
    exec i { toArch := a, inputs := inputs, out := out } = .next { toArch := b, inputs := inputs, out := o } := by
  have h : ∃ t, exec i { toArch := a, inputs := [], out := Outputs.silent } = .next t := by cases i <;> exact ⟨_, rfl⟩
  obtain ⟨t, ht⟩ := h
  exact ⟨t.toArch, t.out, fun _ _ => by cases i <;> cases ht <;> rfl⟩

/-- A command's step is `commandStep` on the architectural state. -/
theorem step_presented_eq_commandStep (s : State) (c : Command) :
    step (s.presented c) =
      .next { toArch := (commandStep s.toArch c).1, inputs := s.inputs, out := (commandStep s.toArch c).2 } := by
  obtain ⟨b, o, h⟩ := exec_ports (decode c) s.toArch
  have h0 := (step_presented { toArch := s.toArch, inputs := [], out := Outputs.silent } c).trans (h _ _)
  simp only [commandStep, totalStep_eq h0]
  exact (step_presented s c).trans (h _ _)

/-- A trace of one step more. -/
theorem trace_succ {s t : State} (n : Nat) (h : step s = .next t) : trace (n + 1) s = t.out :: trace n t := by
  simp [trace, h]

end Sys2Proof.Machine
end

