-- ==== Sys2Proof/Tests/Slice0.lean ====
section
/-! SUPPORT. The model's own tests. Expected values are those of spec/95_test_vectors.md, whose vector is named beside each,
or read off the formats of spec/30_encoding.md. The witnesses at the end meet the hypotheses of the statements. -/

namespace Sys2Proof.Tests

open Sys2Proof.Machine

/-! ## WellFormed: the one check refuses an ill-formed term and admits the rest -/

theorem test_wellFormed_refuses_a_listed_status : (Instr.unhandled 0x90 0).wellFormed = false := by decide
theorem test_wellFormed_refuses_a_listed_system_status : (Instr.unhandled 0xF2 0).wellFormed = false := by decide
theorem test_wellFormed_admits_an_unlisted_status : (Instr.unhandled 0xFD 0).wellFormed = true := by decide
theorem test_wellFormed_admits_a_data_byte : (Instr.unhandled 0x7F 0).wellFormed = true := by decide

/-! ## Decoding: a word of every constructor, written out from its format (d2 d1 status, then ignored bits set) -/

theorem test_decode_noteOff : decodeTableWord 32 0xFF403C85 = some (.noteOff 5 0x3C 0x40 0) := by decide
theorem test_decode_noteOn : decodeTableWord 32 0xAB643C90 = some (.noteOn 0 60 100 0) := by decide
theorem test_decode_keyPressure : decodeTableWord 32 0x00207FA3 = some (.keyPressure 3 127 32 0) := by decide
theorem test_decode_controlChange : decodeTableWord 32 0x0064C0BF = some (.controlChange 15 192 100 0) := by decide
theorem test_decode_programChange : decodeTableWord 32 0x1234FFC9 = some (.programChange 9 127 0) := by decide
theorem test_decode_channelPressure : decodeTableWord 32 0x00407FD2 = some (.channelPressure 2 0) := by decide
theorem test_decode_pitchWheel : decodeTableWord 32 0x00AAD5E6 = some (.pitchWheel 6 0x55 0x2A 0) := by decide
theorem test_decode_songPosition : decodeTableWord 32 0xFFF100F2 = some (.songPosition 0x100 0) := by decide
theorem test_decode_songSelect : decodeTableWord 32 0x00FFFFF3 = some (.songSelect 255 0) := by decide
theorem test_decode_tuneRequest : decodeTableWord 8 0xF6 = some (.tuneRequest 0) := by decide
theorem test_decode_midiClock : decodeTableWord 32 0xABCDEFF8 = some (.midiClock 0) := by decide
theorem test_decode_midiTick : decodeTableWord 8 0xF9 = some (.midiTick 0) := by decide
theorem test_decode_songStart : decodeTableWord 8 0xFA = some (.songStart 0) := by decide
theorem test_decode_songContinue : decodeTableWord 8 0xFB = some (.songContinue 0) := by decide
theorem test_decode_songStop : decodeTableWord 8 0xFC = some (.songStop 0) := by decide
theorem test_decode_sensing : decodeTableWord 8 0xFE = some (.sensing 0) := by decide
theorem test_decode_reset : decodeTableWord 32 0x123456FF = some (.reset 0) := by decide
theorem test_decode_unhandled : decodeTableWord 32 0x00643C10 = some (.unhandled 0x10 0) := by decide
theorem test_decode_unhandled_f0 : decodeTableWord 8 0xF0 = some (.unhandled 0xF0 0) := by decide
theorem test_decode_setFilters : decodeTableWord 40 0x1FFFFFFC0 = some (.setFilters 0xFFFFFFC0) := by decide

/-- The timing operand is bits 64:33 of a command's number. -/
theorem test_decode_timing : decodeTableWord 72 0x2400643C90 = some (.noteOn 0 60 100 0x12) := by decide

/-- A bit above the 65 of a command is refused by name. -/
theorem test_decode_too_wide : decodeBits (2 ^ 65) = .error .widerThanACommand := by rfl

/-- The counts of 2.16 of 95_test_vectors.md over the 256 status bytes. -/
theorem test_classification_counts :
    ((List.range 256).map fun b => classify (BitVec.ofNat 32 b)).count .unhandled = 134 ∧
    ((List.range 256).map fun b => classify (BitVec.ofNat 32 b)).count .pitchWheel = 16 ∧
    ((List.range 256).map fun b => classify (BitVec.ofNat 32 b)).count .sensing = 1 := by
  decide +kernel

/-! ## One step -/

/-- A state with these registers and this one `DECODE` command presented. -/
def before (prog : Program) (filter word timing : Word) : State :=
  { prog := prog, filter := filter, inputs := [.presenting (.decode word timing)], out := Outputs.silent }

/-- `PROG` and the results of one step. -/
def after (s : State) : Option (Program × Outputs) :=
  match step s with
  | .next t => some (t.prog, t.out)
  | .fault r => nomatch r
  | .refused _ => none

/-- The registers after one step, and whether it gave anything out. -/
def registersAfter (s : State) : Option (Program × Word × Bool) :=
  match step s with
  | .next t => some (t.prog, t.filter, t.out == Outputs.silent)
  | .fault r => nomatch r
  | .refused _ => none

/-- V-NOFF-3. -/
theorem test_noteOff_full_bytes : after (before 42 0x0B 0x00FFFF8F 0) =
    some (42, { dec := some (.noteOff 15 255 255), ev := some (.noteOff 15 255 255), evTiming := 0 }) := by decide
/-- V-NOFF-4. -/
theorem test_noteOff_masked : after (before 42 0x0A 0x00403C80 0) =
    some (42, { dec := some (.noteOff 0 60 64), ev := none, evTiming := 0 }) := by decide
/-- V-NON-3. -/
theorem test_noteOn_velocity_zero : after (before 42 0x0B 0x00003C95 0x10) =
    some (42, { dec := some (.noteOn 5 60 0), ev := some (.noteOn 5 60 0), evTiming := 0x10 }) := by decide
/-- V-NON-6. -/
theorem test_noteOn_every_other_flag : after (before 42 0xFFFFFFFE 0x00643C90 7) =
    some (42, { dec := some (.noteOn 0 60 100), ev := none, evTiming := 0 }) := by decide
/-- V-KP-1. -/
theorem test_keyPressure : after (before 42 0x0B 0x00207FA3 0) =
    some (42, { dec := some (.keyPressure 3 127 32), ev := some (.keyPressure 3 127 32), evTiming := 0 }) := by decide
/-- V-KP-3. -/
theorem test_keyPressure_masked_by_note : after (before 42 0x0A 0x00207FA3 0) =
    some (42, { dec := some (.keyPressure 3 127 32), ev := none, evTiming := 0 }) := by decide
/-- V-CC-7. -/
theorem test_controlChange_only_flag : after (before 42 0x02 0x007F07B0 0) =
    some (42, { dec := some (.controlChange 0 7 127), ev := some (.controlChange 0 7 127), evTiming := 0 }) := by decide
/-- V-CC-6. -/
theorem test_controlChange_masked : after (before 42 0x09 0x007F07B0 0) =
    some (42, { dec := some (.controlChange 0 7 127), ev := none, evTiming := 0 }) := by decide
/-- V-PC-3. -/
theorem test_programChange_old_and_new : after (before 42 0x0F 0x000085C7 0) =
    some (5, { dec := some (.programChange 7 5 42), ev := some (.programChange 7 5 42), evTiming := 0 }) := by decide
/-- V-PC-12. -/
theorem test_programChange_masked_still_writes : after (before 42 0xFFFFFFFB 0x000009C9 3) =
    some (9, { dec := some (.programChange 9 9 42), ev := none, evTiming := 0 }) := by decide
/-- V-CP-2. -/
theorem test_channelPressure_all_flags : after (before 42 0xFFFFFFFF 0xFFFFFFDF 0) =
    some (42, { dec := some (.channelPressure 15), ev := none, evTiming := 0 }) := by decide
/-- V-PW-10. -/
theorem test_pitchWheel : after (before 42 0x08 0x002A55E6 0) =
    some (42, { dec := some (.pitchWheel 6 5461), ev := some (.pitchWheel 6 5461), evTiming := 0 }) := by decide
/-- V-PW-9. -/
theorem test_pitchWheel_masked : after (before 42 0x03 0x004000E0 0) =
    some (42, { dec := some (.pitchWheel 0 8192), ev := none, evTiming := 0 }) := by decide
/-- V-SP-3. -/
theorem test_songPosition_maximum : after (before 42 0x0B 0x000FFFF2 0) =
    some (42, { dec := some (.songPosition 4095 24570), ev := none, evTiming := 0 }) := by decide
/-- V-SP-5, under the `Song` flag. -/
theorem test_songPosition_twelve_bits : after (before 42 0x3F 0x007F7FF2 0) =
    some (42, { dec := some (.songPosition 3967 23802), ev := none, evTiming := 0 }) := by decide
/-- V-SS-2. -/
theorem test_songSelect : after (before 42 0x3F 0x00FFFFF3 0) =
    some (42, { dec := some (.songSelect 255), ev := none, evTiming := 0 }) := by decide
/-- V-SYS-1. -/
theorem test_tuneRequest : after (before 42 0x3F 0xF6 0) =
    some (42, { dec := some .tuneRequest, ev := none, evTiming := 0 }) := by decide
/-- V-SYS-8. -/
theorem test_midiClock : after (before 42 0x00 0xABCDEFF8 0) =
    some (42, { dec := some .midiClock, ev := none, evTiming := 0 }) := by decide
/-- V-SYS-3. -/
theorem test_midiTick : after (before 42 0x3F 0xF9 0) =
    some (42, { dec := some .midiTick, ev := none, evTiming := 0 }) := by decide
/-- V-SYS-4. -/
theorem test_songStart : after (before 42 0x3F 0xFA 0) =
    some (42, { dec := some .songStart, ev := none, evTiming := 0 }) := by decide
/-- V-SYS-5. -/
theorem test_songContinue : after (before 42 0x3F 0xFB 0) =
    some (42, { dec := some .songContinue, ev := none, evTiming := 0 }) := by decide
/-- V-SYS-6. -/
theorem test_songStop : after (before 42 0x3F 0xFC 0) =
    some (42, { dec := some .songStop, ev := none, evTiming := 0 }) := by decide
/-- V-SYS-7. -/
theorem test_sensing : after (before 42 0x3F 0xFE 0) =
    some (42, { dec := some .sensing, ev := none, evTiming := 0 }) := by decide
/-- V-RST-5, with the timing of P3 step 3. -/
theorem test_reset_under_empty_mask : after (before 42 0x00 0x123456FF 2) =
    some (42, { dec := some .reset, ev := some .reset, evTiming := 2 }) := by decide
/-- V-UNH-9. -/
theorem test_unhandled_no_running_status : after (before 42 0xFFFFFFFF 0x00643C10 6) =
    some (42, { dec := some .unhandled, ev := none, evTiming := 0 }) := by decide
/-- V-UNH-6. -/
theorem test_unhandled_fd : after (before 42 0xFFFFFFFF 0xFD 0) =
    some (42, { dec := some .unhandled, ev := none, evTiming := 0 }) := by decide

/-- A state with these registers and these pins presented. -/
def facing (prog : Program) (filter : Word) (p : PinsIn) : State :=
  { prog := prog, filter := filter, inputs := [p], out := { dec := some .reset, ev := some .reset, evTiming := 9 } }

/-- V-SF-4. -/
theorem test_setFilters_wholesale :
    registersAfter (facing 42 0x0B (.presenting (.setFilters 0x04))) = some (42, 0x04, true) := by decide
/-- V-SF-6: the timing field is ignored. -/
theorem test_setFilters_ignores_timing :
    registersAfter (facing 42 0x0B ⟨false, true, true, 0x30, 0xDEADBEEF⟩) = some (42, 0x30, true) := by decide
/-- V-HR-2. -/
theorem test_hardwareReset_overrides_decode :
    registersAfter (facing 42 0x00 ⟨true, true, false, 0xFF, 0⟩) = some (0, 0x0B, true) := by decide
/-- V-HR-3. -/
theorem test_hardwareReset_overrides_setFilters :
    registersAfter (facing 42 0x04 ⟨true, true, true, 0xFFFFFFFF, 0⟩) = some (0, 0x0B, true) := by decide
/-- V-HR-4. -/
theorem test_idle : registersAfter (facing 42 0x0F ⟨false, false, false, 0xFF, 0⟩) = some (42, 0x0F, true) := by decide

/-! ## The pins (section 2.15 of 95_test_vectors.md) -/

/-- Row 5 of the table. -/
theorem test_pins_programChange :
    (after (before 42 0x0F 0x000085C7 7)).map (fun r => r.2.pins) =
      some { cmdReady := true,
             event := { valid := true, tag := 4, channel := 7, a := 5, b := 42, timing := 7 },
             decode := { valid := true, kind := 0x0C, channel := 7, a := 5, b := 42 } } := by decide
/-- Row 10 of the table. -/
theorem test_pins_songPosition :
    (after (before 42 0x0B 0x000FFFF2 7)).map (fun r => r.2.pins) =
      some { cmdReady := true,
             event := { valid := false, tag := 0, channel := 0, a := 0, b := 0, timing := 0 },
             decode := { valid := true, kind := 0x12, channel := 0, a := 24570, b := 4095 } } := by decide

/-! ## Witnesses for the statements' hypotheses -/

theorem witness_noteOff_word : (0xFFFFFF8F : Word) &&& 0xF0 = 0x80 := by decide
theorem witness_noteOn_word : (0x00003C95 : Word) &&& 0xF0 = 0x90 := by decide
theorem witness_keyPressure_word : (0x00FF00AF : Word) &&& 0xF0 = 0xA0 := by decide
theorem witness_controlChange_word : (0x0064C0B0 : Word) &&& 0xF0 = 0xB0 := by decide
theorem witness_programChange_word : (0x0000FFC0 : Word) &&& 0xF0 = 0xC0 := by decide
theorem witness_channelPressure_word : (0xFFFFFFDF : Word) &&& 0xF0 = 0xD0 := by decide
theorem witness_pitchWheel_word : (0x00FFFFEF : Word) &&& 0xF0 = 0xE0 ∧ classify 0x00FFFFEF = .pitchWheel := by decide
theorem witness_songPosition_word : (0x00FFFFF2 : Word) &&& 0xFF = 0xF2 := by decide
theorem witness_songSelect_word : (0x00FFFFF3 : Word) &&& 0xFF = 0xF3 := by decide
theorem witness_dataless_words :
    (0xABCDEFF6 : Word) &&& 0xFF = 0xF6 ∧ (0xABCDEFF8 : Word) &&& 0xFF = 0xF8 ∧ (0xABCDEFF9 : Word) &&& 0xFF = 0xF9 ∧
    (0xABCDEFFA : Word) &&& 0xFF = 0xFA ∧ (0xABCDEFFB : Word) &&& 0xFF = 0xFB ∧ (0xABCDEFFC : Word) &&& 0xFF = 0xFC ∧
    (0xABCDEFFE : Word) &&& 0xFF = 0xFE := by decide
theorem witness_reset_word : (0xFFFFFFFF : Word) &&& 0xFF = 0xFF := by decide
theorem witness_unhandled_words :
    (0xFFFFFF7F : Word) &&& 0x80 = 0 ∧ (0xFFFFFFF0 : Word) &&& 0xFF = 0xF0 ∧ (0xFFFFFFF1 : Word) &&& 0xFF = 0xF1 ∧
    (0xFFFFFFF4 : Word) &&& 0xFF = 0xF4 ∧ (0xFFFFFFF5 : Word) &&& 0xFF = 0xF5 ∧ (0xFFFFFFF7 : Word) &&& 0xFF = 0xF7 ∧
    (0xFFFFFFFD : Word) &&& 0xFF = 0xFD := by decide

/-- Both a kind with operands and an unhandled status byte are well-formed. -/
theorem witness_wellFormed :
    (Instr.pitchWheel 15 127 127 0xFFFFFFFF).wellFormed = true ∧ (Instr.unhandled 0x7F 1).wellFormed = true := by decide

/-- Two different words that agree on the significant bits of their kind. -/
theorem witness_ignoredBits :
    (0xAB643C90 : Word) &&& (classify 0xAB643C90).significantBits =
        0x00643C90 &&& (classify 0xAB643C90).significantBits ∧
      (0xAB643C90 : Word) ≠ 0x00643C90 := by decide

/-- An unhandled word, two words that differ in bits 31:24, and a word whose event one mask filters and another passes
(`NoSituationIsAFaultOrARefusal`). -/
theorem witness_the_three_situations :
    classify 0x00643C10 = .unhandled ∧
      ((0xAB643C90 : Word) &&& 0x00FFFFFF = 0x00643C90 &&& 0x00FFFFFF ∧ (0xAB643C90 : Word) ≠ 0x00643C90) ∧
      (∃ t, exec (decode (.decode 0x000005C0 0)) State.reset = .next t ∧ t.out.ev = none) ∧
      ∃ t, exec (decode (.decode 0x000005C0 0)) { State.reset with filter := 0x0F } = .next t ∧
        t.out.ev = some (.programChange 0 5 0) :=
  ⟨by decide, by decide, ⟨_, rfl, rfl⟩, ⟨_, rfl, rfl⟩⟩

/-- The total step runs an idle step from reset (R212). -/
theorem test_totalStep_idles_from_reset : totalStep State.reset = State.reset := by decide

/-- A word to place, of each `op`. -/
theorem witness_placedWord :
    decodeTableWord 32 0x00643C90 = some (.noteOn 0 60 100 0) ∧
      decodeTableWord 40 0x10000000F = some (.setFilters 0x0F) := by decide

/-- Pins that present a command of each `op`, with `rst` released. -/
theorem witness_command_presented :
    (facing 1 2 ⟨false, true, false, 0x90, 3⟩).inputs = ⟨false, true, false, 0x90, 3⟩ :: [] ∧
      (facing 1 2 ⟨false, true, true, 0x0F, 3⟩).inputs = ⟨false, true, true, 0x0F, 3⟩ :: [] := by decide

/-- Pins with `rst` asserted beside a command, and idle pins, and no pins. -/
theorem witness_reset_and_idle_pins :
    (facing 1 2 ⟨true, true, false, 0xFF, 3⟩).inputs = ⟨true, true, false, 0xFF, 3⟩ :: [] ∧
      (facing 1 2 PinsIn.quiet).inputs = PinsIn.quiet :: [] ∧ PinsIn.quiet.rst = false ∧
      PinsIn.quiet.cmdValid = false ∧ State.reset.inputs = [] := by decide

/-- A repeated command of each clause of `RepeatingACommand`. -/
theorem witness_repeated :
    (Instr.noteOn 0 60 100 7).kind? ≠ some .programChange ∧
      (∃ t, exec (.noteOn 0 60 100 7) State.reset = .next t) ∧
      ∃ t, exec (.programChange 3 5 7) State.reset = .next t :=
  ⟨by decide, ⟨_, rfl⟩, ⟨_, rfl⟩⟩

/-- Steps that change each register (`OnlyTwoInstructionsWriteRegisters`). -/
theorem witness_registers_change :
    (∃ t, exec (.programChange 3 5 0) State.reset = .next t ∧ t.prog ≠ State.reset.prog) ∧
      ∃ t, exec (.setFilters 0) State.reset = .next t ∧ t.filter ≠ State.reset.filter :=
  ⟨⟨_, rfl, by decide⟩, ⟨_, rfl, by decide⟩⟩

/-- Two `PROGRAMCHANGE` words of different channels with an idle step between. -/
theorem witness_shared_prog :
    classify 0x000005C0 = .programChange ∧ classify 0x00000AC3 = .programChange ∧
      (∀ p ∈ [PinsIn.quiet], p.rst = false ∧ p.cmdValid = false) ∧
      ({ State.reset with
          inputs := PinsIn.presenting (.decode 0x5C0 0) :: [PinsIn.quiet] ++ [PinsIn.presenting (.decode 0xAC3 0)] }).inputs =
        PinsIn.presenting (.decode 0x5C0 0) :: [PinsIn.quiet] ++ [PinsIn.presenting (.decode 0xAC3 0)] := by decide

/-- A step with an event and a step without (`EventTagIsReadOffTheStatusByte`). -/
theorem witness_event_and_no_event :
    (∃ t, exec (decode (.decode 0xFF 0)) State.reset = .next t ∧ t.out.ev.isSome = true) ∧
      ∃ t, exec (decode (.decode 0xF8 0)) State.reset = .next t ∧ t.out.ev.isSome = false :=
  ⟨⟨_, rfl, by decide⟩, ⟨_, rfl, by decide⟩⟩

/-- Equal pins of equal results, with an event among them. -/
theorem witness_equal_pins :
    ({ dec := some .reset, ev := some .reset, evTiming := 1 } : Outputs).eventPins =
        ({ dec := none, ev := some .reset, evTiming := 1 } : Outputs).eventPins ∧
      ({ dec := some .reset, ev := some .reset, evTiming := 1 } : Outputs).decodePins =
        ({ dec := some .reset, ev := none, evTiming := 0 } : Outputs).decodePins := by decide

/-- A coherent state that has driven an event and has a next state. -/
theorem witness_coherent_state :
    PortsCoherent { before 5 0x0F 0x00643C90 1 with
        out := { dec := some (.programChange 0 5 4), ev := some (.programChange 0 5 4), evTiming := 3 } } ∧
      ∃ t, step { before 5 0x0F 0x00643C90 1 with
        out := { dec := some (.programChange 0 5 4), ev := some (.programChange 0 5 4), evTiming := 3 } } = .next t := by
  refine ⟨?_, ⟨_, rfl⟩⟩
  constructor
  · intro h; cases h
  · intro h; cases h
  · rintro e h; cases h; exact ⟨_, rfl, rfl⟩
  · rintro c p o h; cases h; rfl
  · rintro b c h; cases h

/-- A state whose pins split into a run and a rest. -/
theorem witness_run :
    ({ before 1 2 0x5C0 3 with inputs := [.presenting (.decode 0x5C0 3), PinsIn.quiet, PinsIn.quiet] }).inputs =
      [.presenting (.decode 0x5C0 3), PinsIn.quiet] ++ [PinsIn.quiet] := by decide

/-- Two lists of pins that differ in a timing value. -/
theorem witness_timing :
    List.Forall₂ (fun p p' : PinsIn => ∃ timing, p' = p.withTiming timing) [.presenting (.decode 0x90 1)]
      [.presenting (.decode 0x90 2)] :=
  .cons ⟨2, rfl⟩ .nil

/-- Two different states that agree on `PROG` and on `FILTER[3:0]`. -/
theorem witness_indistinguishable :
    (before 1 0x0B 0x90 0).prog = (before 1 0xFFFFFFFB 0x90 0).prog ∧
      (before 1 0x0B 0x90 0).filter.extractLsb' 0 4 = (before 1 0xFFFFFFFB 0x90 0).filter.extractLsb' 0 4 ∧
      before 1 0x0B 0x90 0 ≠ before 1 0xFFFFFFFB 0x90 0 := by decide

/-- Two different states with one pair and the same pins to come
(`BehaviourIsAFunctionOfThePairAndTheCommands`). -/
theorem witness_one_pair :
    (facing 1 2 PinsIn.quiet).toArch = { (facing 1 2 PinsIn.quiet) with out := Outputs.silent }.toArch ∧
      (facing 1 2 PinsIn.quiet).inputs = { (facing 1 2 PinsIn.quiet) with out := Outputs.silent }.inputs ∧
      facing 1 2 PinsIn.quiet ≠ { facing 1 2 PinsIn.quiet with out := Outputs.silent } := by decide

/-- V-NON-1's command as a function of the pair. -/
theorem test_commandStep_noteOn :
    commandStep Arch.reset (.decode 0x00643C90 0) =
      (Arch.reset, { dec := some (.noteOn 0 60 100), ev := some (.noteOn 0 60 100), evTiming := 0 }) := by decide

/-- Two decoders side by side. -/
theorem witness_system :
    [State.reset, before 1 2 0x90 3][1]? = some (before 1 2 0x90 3) := by decide

end Sys2Proof.Tests
end

namespace Sys2Proof.Machine

/-! ## Completion (R13)

An instruction's outcome is read off `exec_shapes`; a step's is the state of `totalStep`. -/

/-- R13 for one instruction: each of the three shapes it can have is a next state. -/
theorem exec_completes (i : Instr) (s : State) : Completes (exec i s) := by
  obtain ⟨_, _, h⟩ | ⟨_, _, _, _, h⟩ | ⟨_, _, _, _, _, h⟩ := exec_shapes i s
  · exact ⟨_, h⟩
  · exact ⟨_, h⟩
  · exact ⟨_, h⟩

/-- R13 for one step: `totalStep` names the next state. -/
theorem step_completes (s : State) : Completes (step s) := ⟨totalStep s, step_eq_next_totalStep s⟩

/-- Settles O29: the step's half is `step_completes`, the instruction's is `exec_completes`. -/
theorem everyStepCompletes : Obligations.EveryStepCompletes := ⟨step_completes, exec_completes⟩

end Sys2Proof.Machine

namespace Sys2Proof.Machine

/-! ## One step and the registers (R25, R29, R168) -/

/-- Settles O32: of the three shapes of `exec_shapes` one writes `FILTER`, one writes `PROG`, and the third neither. -/
theorem onlyTwoInstructionsWriteRegisters : Obligations.OnlyTwoInstructionsWriteRegisters := by
  intro i s
  obtain ⟨mask, rfl, h⟩ | ⟨channel, program, timing, rfl, h⟩ | ⟨-, -, dec, ev, timing, h⟩ := exec_shapes i s
  · exact ⟨_, h, rfl, fun hprog => absurd rfl hprog, fun _ => rfl⟩
  · exact ⟨_, h, rfl, fun _ => ⟨channel, timing, rfl⟩, fun hfilter => absurd rfl hfilter⟩
  · exact ⟨_, h, rfl, fun hprog => absurd rfl hprog, fun hfilter => absurd rfl hfilter⟩

/-- No instruction reads the recorded outputs: `exec_ports` names one result for all of them. -/
theorem exec_with_out (i : Instr) (s : State) (o : Outputs) : exec i { s with out := o } = exec i s := by
  obtain ⟨b, o', h⟩ := exec_ports i s.toArch
  exact (h s.inputs o).trans (h s.inputs s.out).symm

/-- Settles O35: what a step is to do is read off the pins, and each of the three things it can do overwrites the
outputs without reading them. -/
theorem outputsAreNotState : Obligations.OutputsAreNotState := by
  intro s o
  have haction : State.action { s with out := o } = s.action := rfl
  unfold step
  rw [haction]
  cases s.action with
  | idle => rfl
  | hardwareReset => rfl
  | run i => exact exec_with_out i s.taken o

/-- Settles O27: the reset mask is the set of the three named categories, whose flags `enabledIn_maskOf` reads. -/
theorem resetStateHasTheDefaultMask : Obligations.ResetStateHasTheDefaultMask := by
  refine ⟨rfl, rfl, rfl, rfl, fun c => ?_⟩
  have hmask : enabledIn State.reset.filter c = decide (c ∈ Config.filterResetSet) := enabledIn_maskOf _ c
  simpa [Config.filterResetSet] using hmask

/-- Every run has an end, since every step has (R13). -/
theorem core_run_completes (n : Nat) (s : State) : Completes (Host.Core.run core n s) := by
  induction n generalizing s with
  | zero => exact ⟨s, rfl⟩
  | succ n ih =>
    rw [core_run_succ n (step_eq_next_totalStep s)]
    exact ih (totalStep s)

/-! ## Pins, the gate and the history of a run -/

/-- What pins can ask for: hardware reset, nothing, or a command. -/
theorem pins_cases (p : PinsIn) :
    p.rst = true ∨ (p.rst = false ∧ p.command = none) ∨ (p.rst = false ∧ ∃ c, p.command = some c) := by
  cases hr : p.rst with
  | true => exact .inl rfl
  | false =>
    cases p.command with
    | none => exact .inr (.inl ⟨rfl, rfl⟩)
    | some c => exact .inr (.inr ⟨rfl, c, rfl⟩)

/-- An event passes the gate exactly when its category is enabled (R164). -/
theorem gate_isSome (filter : Word) (c : Category) (e : Event) : (gate filter c e).isSome = enabledIn filter c := by
  unfold gate
  cases enabledIn filter c <;> rfl

/-- An earlier part of the history only gives the value that the later part starts from. -/
theorem lastProgram_append (start : Program) (later earlier : List PinsIn) :
    lastProgram start (later ++ earlier) = lastProgram (lastProgram start earlier) later := by
  induction later with
  | nil => rfl
  | cons p later ih => simp only [List.cons_append, lastProgram, ih]

/-- The same of the history of masks. -/
theorem lastMask_append (start : Word) (later earlier : List PinsIn) :
    lastMask start (later ++ earlier) = lastMask (lastMask start earlier) later := by
  induction later with
  | nil => rfl
  | cons p later ih => simp only [List.cons_append, lastMask, ih]

end Sys2Proof.Machine

namespace Sys2Proof.Reference

open Sys2Proof.Machine

/-! ## The step of R177 and the machine's step

The machine's `step` is `Reference.pinsStep` on the pair, and so a run of the machine is `Reference.run`. The statements
about runs below are then proved about `Reference.run`, where there is nothing but pairs and pins. -/

section pins

variable (a : Pair) {p : PinsIn}

/-- Hardware reset wins over whatever else the pins carry (R211). -/
theorem pinsStep_of_rst (h : p.rst = true) : pinsStep a p = (Arch.reset, Outputs.silent) := by
  rw [pinsStep, if_pos h]; rfl

/-- No command is accepted, nothing changes and nothing is given out (R176). -/
theorem pinsStep_of_no_command (hr : p.rst = false) (hc : p.command = none) :
    pinsStep a p = (a, Outputs.silent) := by
  have hv : p.cmdValid = false := by simpa [PinsIn.command, hr] using hc
  simp only [pinsStep, hr, hv, Bool.false_eq_true, if_false]; rfl

/-- An accepted command is stepped (R60, R176). -/
theorem pinsStep_of_command {c : Command} (h : p.command = some c) : pinsStep a p = step a c := by
  obtain ⟨⟨hr, hv⟩, hc⟩ : (p.rst = false ∧ p.cmdValid = true) ∧
      Command.ofFields p.cmdOp p.cmdWord p.cmdTiming = c := by simpa [PinsIn.command] using h
  simp only [pinsStep, hr, hv, ← hc, Command.ofFields, Bool.false_eq_true, if_false, if_true]

end pins

@[simp] theorem pinsStep_presenting (a : Pair) (c : Command) : pinsStep a (.presenting c) = step a c :=
  pinsStep_of_command a (PinsIn.presenting_command c)

/-- The source's shift-and-mask formula of the pitch value (R106) is the reassembly of the two halves (R74): the two
masks keep the bits of one half each. -/
theorem pitchFormula_eq_pitchValue (message : Word) :
    (((message &&& 0x007F0000) >>> 9) ||| ((message &&& 0x00007F00) >>> 8)).setWidth 14 =
      pitchValue (low7Field message) (high7Field message) := by
  have hmask : ∀ i < 14, (0x007F0000#32).getLsbD (9 + i) = decide (7 ≤ i) ∧
      (0x00007F00#32).getLsbD (8 + i) = decide (i < 7) := by decide
  refine BitVec.eq_of_getLsbD_eq fun i hi => ?_
  obtain ⟨hhigh, hlow⟩ := hmask i hi
  rw [pitchValue_getLsbD]
  by_cases h : i < 7
  · simp [low7Field, hi, hhigh, hlow, h, Nat.not_le.mpr h]
  · have hshift : 16 + (i - 7) = 9 + i := by omega
    have hwidth : i - 7 < 7 := by omega
    simp [high7Field, hi, hhigh, hlow, h, Nat.not_lt.mp h, hshift, hwidth]

/-- The source's product of the song position (R130) is the model's (R75). -/
theorem clocksFormula_eq_songClocks (beats : BitVec 12) : BitVec.ofNat 15 (beats.toNat * 6) = songClocks beats := by
  rw [← songClocks_toNat, BitVec.ofNat_toNat, BitVec.setWidth_eq]

/-- What the machine does with a decoded command is what R177 writes out, and the ports pass through. -/
theorem exec_decode_eq_step (c : Command) (a : Arch) (inputs : List PinsIn) (out : Outputs) :
    exec (decode c) { toArch := a, inputs := inputs, out := out } =
      .next { toArch := (step a c).1, inputs := inputs, out := (step a c).2 } := by
  cases c with
  | setFilters mask => rfl
  | decode message timing =>
    cases hk : classify message <;>
      simp only [decode, decodeMessage, step, event, decoded, hk, pitchFormula_eq_pitchValue,
        clocksFormula_eq_songClocks] <;>
      rfl

/-- One step of the machine is `pinsStep` on the pair, whatever was driven before; the pins of the step are taken. -/
theorem step_eq_pinsStep (a : Arch) (p : PinsIn) (rest : List PinsIn) (out : Outputs) :
    Machine.step { toArch := a, inputs := p :: rest, out := out } =
      .next { toArch := (pinsStep a p).1, inputs := rest, out := (pinsStep a p).2 } := by
  have haction : State.action { toArch := a, inputs := p :: rest, out := out } = p.action := rfl
  obtain hr | ⟨hr, hc⟩ | ⟨hr, c, hc⟩ := pins_cases p
  · simp only [Machine.step, haction, PinsIn.action, hr, if_true, pinsStep_of_rst a hr]
    rfl
  · simp only [Machine.step, haction, PinsIn.action, hr, hc, Bool.false_eq_true, if_false,
      pinsStep_of_no_command a hr hc]
    rfl
  · simp only [Machine.step, haction, PinsIn.action, hr, hc, Bool.false_eq_true, if_false, pinsStep_of_command a hc]
    exact exec_decode_eq_step c a rest out

/-- The machine's step on the pair alone is the step that R177 writes out. -/
theorem commandStep_eq_step (a : Arch) (c : Command) : commandStep a c = step a c := by
  have h := (step_presented _ c).trans (exec_decode_eq_step c a [] Outputs.silent)
  simp only [commandStep, totalStep_eq h]

/-- A run of the machine over pins is `Reference.run` (R47, R178); the outputs it leaves are those of its last step. -/
theorem core_run_eq_run (pins rest : List PinsIn) (a : Arch) (out : Outputs) :
    Host.Core.run core pins.length { toArch := a, inputs := pins ++ rest, out := out } =
      .next { toArch := (run a pins).1, inputs := rest, out := (run a pins).2.getLastD out } := by
  induction pins generalizing a out with
  | nil => rfl
  | cons p pins ih =>
    rw [List.length_cons, List.cons_append, core_run_succ _ (step_eq_pinsStep a p (pins ++ rest) out), ih, run,
      List.getLastD_cons]

/-- The outputs of a run of the machine over pins are those of `Reference.run`, in order (R51, R178). -/
theorem trace_eq_run (pins rest : List PinsIn) (a : Arch) (out : Outputs) :
    trace pins.length { toArch := a, inputs := pins ++ rest, out := out } = (run a pins).2 := by
  induction pins generalizing a out with
  | nil => rfl
  | cons p pins ih =>
    rw [List.length_cons, List.cons_append, trace_succ _ (step_eq_pinsStep a p (pins ++ rest) out), ih, run]

/-! ## Runs of the written-out step -/

/-- A run over pins and then more pins is the second run from the pair that the first left (R47). -/
theorem run_append (a : Pair) (pins later : List PinsIn) :
    run a (pins ++ later) = ((run (run a pins).1 later).1, (run a pins).2 ++ (run (run a pins).1 later).2) := by
  induction pins generalizing a with
  | nil => rfl
  | cons p pins ih => simp only [List.cons_append, run, ih]

/-- The last outputs of a run are those of its last step, from the pair that the steps before it left. -/
theorem run_last_outputs (a : Pair) (pins : List PinsIn) (p : PinsIn) (out : Outputs) :
    (run a (pins ++ [p])).2.getLastD out = (pinsStep (run a pins).1 p).2 := by
  simp [run_append, run]

/-- Idle steps keep the pair, however many there are (R176, R217). -/
theorem run_idle (a : Pair) {idles : List PinsIn} (h : ∀ p ∈ idles, p.rst = false ∧ p.cmdValid = false) :
    (run a idles).1 = a := by
  induction idles with
  | nil => rfl
  | cons p idles ih =>
    obtain ⟨hp, hidles⟩ := List.forall_mem_cons.mp h
    have hc : p.command = none := by simp [PinsIn.command, hp]
    rw [run, pinsStep_of_no_command a hp.1 hc]
    exact ih hidles

/-! ### The registers hold the last written -/

/-- `PROG` after one step is what the history of that step says (R24, R210). -/
theorem pinsStep_prog (a : Pair) (p : PinsIn) : (pinsStep a p).1.prog = lastProgram a.prog [p] := by
  obtain hr | ⟨hr, hc⟩ | ⟨hr, c, hc⟩ := pins_cases p
  · simp only [pinsStep_of_rst a hr, lastProgram, hr, if_true]
    rfl
  · simp only [pinsStep_of_no_command a hr hc, lastProgram, programPresented, hr, hc, Bool.false_eq_true, if_false]
  · rw [pinsStep_of_command a hc]
    cases c with
    | setFilters mask => simp [step, lastProgram, programPresented, hr, hc]
    | decode message timing =>
      by_cases hk : classify message = .programChange <;>
        simp [step, lastProgram, programPresented, hr, hc, hk, low7Field]

/-- `FILTER` after one step is what the history of that step says (R29, R210). -/
theorem pinsStep_filter (a : Pair) (p : PinsIn) : (pinsStep a p).1.filter = lastMask a.filter [p] := by
  obtain hr | ⟨hr, hc⟩ | ⟨hr, c, hc⟩ := pins_cases p
  · simp only [pinsStep_of_rst a hr, lastMask, hr, if_true]
    rfl
  · simp only [pinsStep_of_no_command a hr hc, lastMask, hr, hc, Bool.false_eq_true, if_false]
  · rw [pinsStep_of_command a hc]
    cases c <;> simp [step, lastMask, hr, hc]

/-- `PROG` after a run is the last program of its history, the latest pins first (R24). -/
theorem run_prog (a : Pair) (pins : List PinsIn) : (run a pins).1.prog = lastProgram a.prog pins.reverse := by
  induction pins generalizing a with
  | nil => rfl
  | cons p pins ih => rw [List.reverse_cons, lastProgram_append, ← pinsStep_prog, ← ih, run]

/-- `FILTER` after a run is the last mask of its history, the latest pins first (R29). -/
theorem run_filter (a : Pair) (pins : List PinsIn) : (run a pins).1.filter = lastMask a.filter pins.reverse := by
  induction pins generalizing a with
  | nil => rfl
  | cons p pins ih => rw [List.reverse_cons, lastMask_append, ← pinsStep_filter, ← ih, run]

/-! ### What an observer can tell apart -/

/-- Two pairs that agree on everything a step reads: `PROG` and the four flags that gate an event (R28). -/
structure SameObservable (a b : Pair) : Prop where
  prog : a.prog = b.prog
  flags : a.filter.extractLsb' 0 4 = b.filter.extractLsb' 0 4

theorem extractLsb'_zero_four_eq_iff (m m' : Word) :
    m.extractLsb' 0 4 = m'.extractLsb' 0 4 ↔ ∀ i < 4, m.getLsbD i = m'.getLsbD i := by
  constructor
  · intro h i hi
    simpa [hi] using congrArg (·.getLsbD i) h
  · intro h
    exact BitVec.eq_of_getLsbD_eq fun i hi => by simp [hi, h i hi]

theorem SameObservable.decoded {a b : Pair} (h : SameObservable a b) (message : Word) :
    decoded a message = decoded b message := by
  simp only [Reference.decoded, h.prog]

theorem SameObservable.event {a b : Pair} (h : SameObservable a b) (message : Word) :
    event a message = event b message := by
  have hflag := (extractLsb'_zero_four_eq_iff _ _).mp h.flags
  simp only [Reference.event, h.prog, hflag 0 (by decide), hflag 1 (by decide), hflag 2 (by decide),
    hflag 3 (by decide)]

/-- The step of a command gives the same out from both, and keeps them alike. -/
theorem SameObservable.step {a b : Pair} (h : SameObservable a b) (c : Command) :
    (step a c).2 = (step b c).2 ∧ SameObservable (step a c).1 (step b c).1 := by
  cases c with
  | setFilters mask => exact ⟨rfl, h.prog, rfl⟩
  | decode message timing =>
    simp only [Reference.step, h.decoded, h.event, h.prog, true_and]
    exact ⟨rfl, h.flags⟩

theorem SameObservable.pinsStep {a b : Pair} (h : SameObservable a b) (p : PinsIn) :
    (pinsStep a p).2 = (pinsStep b p).2 ∧ SameObservable (pinsStep a p).1 (pinsStep b p).1 := by
  obtain hr | ⟨hr, hc⟩ | ⟨-, c, hc⟩ := pins_cases p
  · simp only [pinsStep_of_rst _ hr, true_and]
    exact ⟨rfl, rfl⟩
  · simp only [pinsStep_of_no_command _ hr hc, true_and]
    exact h
  · simp only [pinsStep_of_command _ hc]
    exact h.step c

theorem SameObservable.run_outputs {a b : Pair} (h : SameObservable a b) (pins : List PinsIn) :
    (run a pins).2 = (run b pins).2 := by
  induction pins generalizing a b with
  | nil => rfl
  | cons p pins ih =>
    obtain ⟨hout, hnext⟩ := h.pinsStep p
    simp only [run, hout, ih hnext]

/-- Whether a message dispatches an event is the column "dispatched when" of R164. -/
theorem event_isSome (a : Pair) (message : Word) :
    (event a message).isSome = dispatchesUnder a.filter (classify message) := by
  cases hk : classify message <;> simp only [event, hk, dispatchesUnder, Option.isSome_none, Option.isSome_some]
  case noteOff | noteOn | keyPressure => exact gate_isSome a.filter .note _
  case controlChange => exact gate_isSome a.filter .controlChange _
  case programChange => exact gate_isSome a.filter .programChange _
  case pitchWheel => exact gate_isSome a.filter .pitchWheel _

/-- If one command alone cannot tell two pairs apart, they agree on what a step reads: a `PROGRAMCHANGE` reports `PROG`,
and a word of each of the four gated categories shows its flag. -/
theorem sameObservable_of_step_outputs {a b : Pair} (h : ∀ c, (step a c).2 = (step b c).2) : SameObservable a b := by
  have hevent (message : Word) : event a message = event b message := congrArg Outputs.ev (h (.decode message 0))
  have hgate (message : Word) :
      dispatchesUnder a.filter (classify message) = dispatchesUnder b.filter (classify message) := by
    rw [← event_isSome, ← event_isSome, hevent]
  refine ⟨?_, (extractLsb'_zero_four_eq_iff _ _).mpr fun i hi => ?_⟩
  · have hdec : some (decoded a 0xC0) = some (decoded b 0xC0) := congrArg Outputs.dec (h (.decode 0xC0 0))
    injection hdec with hdec
    injection hdec
  · match i, hi with
    | 0, _ => exact hgate 0x90
    | 1, _ => exact hgate 0xB0
    | 2, _ => exact hgate 0xC0
    | 3, _ => exact hgate 0xE0

end Sys2Proof.Reference

namespace Sys2Proof.Machine

open Sys2Proof.Reference (core_run_eq_run trace_eq_run)

/-- Settles O43: the machine's run is `Reference.run`, whose registers are read off the history of its pins by
`run_prog` and `run_filter`. -/
theorem registersHoldTheLastWritten : Obligations.RegistersHoldTheLastWritten := by
  rintro pins rest ⟨a, inputs, out⟩ (rfl : inputs = pins ++ rest)
  exact ⟨_, core_run_eq_run pins rest a out, Reference.run_prog a pins, Reference.run_filter a pins⟩

/-- Settles O45: what a step reads is `PROG` and the four flags, which every step keeps alike in both
(`SameObservable.run_outputs`); and one command is enough to see any difference in them
(`sameObservable_of_step_outputs`). -/
theorem observableStateIsProgAndFourFlags : Obligations.ObservableStateIsProgAndFourFlags := by
  intro s t
  have htrace (s : State) (pins : List PinsIn) :
      trace pins.length { s with inputs := pins } = (Reference.run s.toArch pins).2 := by
    simpa using trace_eq_run pins [] s.toArch s.out
  simp only [htrace]
  constructor
  · intro h
    have hstep (c : Command) : (Reference.step s.toArch c).2 = (Reference.step t.toArch c).2 := by
      simpa [Reference.run] using h [.presenting c]
    have hsame := Reference.sameObservable_of_step_outputs hstep
    exact ⟨hsame.prog, hsame.flags⟩
  · rintro ⟨hprog, hflags⟩ pins
    exact Reference.SameObservable.run_outputs ⟨hprog, hflags⟩ pins

/-- Two states with one pair, to which the same is presented, have one next state. -/
theorem step_eq_of_same_pair {s s' : State} (ha : s.toArch = s'.toArch) (hi : s.inputs = s'.inputs) :
    step s = step s' := by
  have hs : s = { s' with out := s.out } := by
    rcases s with ⟨a, inputs, out⟩
    cases ha; cases hi; rfl
  rw [hs]
  exact outputsAreNotState s' s.out

/-- Settles O49: a command's step is `commandStep` and that is R177's; and two states with one pair and the same pins
have one next state, so from the first step on their runs are one run. -/
theorem behaviourIsAFunctionOfThePairAndTheCommands : Obligations.BehaviourIsAFunctionOfThePairAndTheCommands := by
  refine ⟨step_presented_eq_commandStep, Reference.commandStep_eq_step, fun n s s' ha hi => ?_⟩
  cases n with
  | zero => exact ⟨rfl, s, s', rfl, rfl, ha, hi⟩
  | succ n =>
    have hs := step_eq_next_totalStep s
    have hs' : step s' = .next (totalStep s) := step_eq_of_same_pair ha hi ▸ hs
    obtain ⟨t, ht⟩ := core_run_completes n (totalStep s)
    exact ⟨(trace_succ n hs).trans (trace_succ n hs').symm, t, t, (core_run_succ n hs).trans ht,
      (core_run_succ n hs').trans ht, rfl, rfl⟩

/-- Settles O34: the pair in which the last step starts is the one that the first left, the idle steps keeping it, and
the decode result of a `PROGRAMCHANGE` reports the `PROG` it starts from. -/
theorem progIsSharedByTheChannels : Obligations.ProgIsSharedByTheChannels := by
  rintro ⟨a, inputs, out⟩ message message' timing timing' idles hm hm' hidles (rfl : inputs = _)
  have hprog : (Reference.run a (.presenting (.decode message timing) :: idles)).1.prog = message.extractLsb' 8 7 := by
    simp only [Reference.run, Reference.pinsStep_presenting, Reference.run_idle _ hidles, Reference.step, hm, if_true]
  have hrun := core_run_eq_run
    (.presenting (.decode message timing) :: idles ++ [.presenting (.decode message' timing')]) [] a out
  rw [List.append_nil, Reference.run_last_outputs, Reference.pinsStep_presenting] at hrun
  simp only [List.length_append, List.length_cons, List.length_nil] at hrun
  refine ⟨_, hrun, ?_⟩
  simp only [Reference.step, Reference.decoded, hm', hprog]

/-- Settles O44: a `PROGRAMCHANGE` of the program and a `SETFILTERS` of the mask reach the pair, each leaving the other
register as it was. -/
theorem everyPairIsReachableFromReset : Obligations.EveryPairIsReachableFromReset := by
  intro prog filter
  have hclass : classify (wordPC 0#4 prog) = .programChange := by
    rw [classify_of_status (statusField_wordPC 0#4 prog)]; decide
  have hprogram : (wordPC 0#4 prog).extractLsb' 8 7 = prog := low7Field_wordPC 0#4 prog
  refine ⟨[.presenting (.decode (wordPC 0#4 prog) 0), .presenting (.setFilters filter)], _,
    core_run_eq_run [_, _] [] Arch.reset Outputs.silent, ?_, ?_, rfl⟩
  · simp [Reference.run, Reference.step, hclass, hprogram]
  · simp [Reference.run, Reference.step]

end Sys2Proof.Machine

namespace Sys2Proof.Machine

/-! ## Commands as they are presented, and runs over them (R44, R45, R47) -/

/-- Settles O42: `core_run_eq_run` names the state the machine's run ends in, `trace_eq_run` the outputs on the way. -/
theorem runIsTheFoldOfTheStep : Obligations.RunIsTheFoldOfTheStep := by
  rintro pins rest ⟨a, inputs, out⟩ (rfl : inputs = pins ++ rest)
  exact ⟨_, Reference.core_run_eq_run pins rest a out, rfl, Reference.trace_eq_run pins rest a out, rfl⟩

/-- Settles O33: a step writes the mask it is given, or records outputs, which `exec_with_out` says the repetition does
not read; and `PROGRAMCHANGE` leaves its own program in `PROG`, from where the repetition reads it as old. -/
theorem repeatingACommand : Obligations.RepeatingACommand := by
  constructor
  · intro i s t hkind hs
    obtain ⟨mask, rfl, h⟩ | ⟨_, _, _, rfl, _⟩ | ⟨_, _, dec, ev, timing, h⟩ := exec_shapes i s
    · obtain rfl : s.silent.writeFilter mask = t := Host.Outcome.next.inj (h.symm.trans hs)
      rfl
    · exact absurd rfl hkind
    · obtain rfl : s.decoded dec ev timing = t := Host.Outcome.next.inj (h.symm.trans hs)
      exact (exec_with_out i s _).trans hs
  · intro channel program timing s t hs
    cases hs
    exact ⟨_, rfl, rfl, rfl, rfl, rfl, rfl⟩

/-- What the decoder reads from a number is the instruction of the command whose bits the number has (R60). -/
theorem decode_ofBits_of_decodeTableWord {nbits w : Nat} {i : Instr} (h : decodeTableWord nbits w = some i) :
    decode (.ofBits (w % 2 ^ nbits)) = i := by
  unfold decodeTableWord decodeBits at h
  split at h
  · exact Option.some.inj h
  · cases h

/-- Settles O23: the placed command is a presented one, which `step_presented` runs. -/
theorem placedWordRunsNext : Obligations.PlacedWordRunsNext := by
  intro s nbits w i h
  rw [← decode_ofBits_of_decodeTableWord h]
  exact step_presented s (.ofBits (w % 2 ^ nbits))

end Sys2Proof.Machine

namespace Sys2Proof

/-! ## Decoding an encoded instruction (R63 to R70, R85) -/

/-- The statement of Laws/PerInstr, of every instruction at once. -/
theorem encodedKind (i : Instr) : Laws.EncodedKind.Statement i := by
  cases i
  case noteOff => exact Laws.EncodedKind.noteOff _ _ _ _
  case noteOn => exact Laws.EncodedKind.noteOn _ _ _ _
  case keyPressure => exact Laws.EncodedKind.keyPressure _ _ _ _
  case controlChange => exact Laws.EncodedKind.controlChange _ _ _ _
  case programChange => exact Laws.EncodedKind.programChange _ _ _
  case channelPressure => exact Laws.EncodedKind.channelPressure _ _
  case pitchWheel => exact Laws.EncodedKind.pitchWheel _ _ _ _
  case songPosition => exact Laws.EncodedKind.songPosition _ _
  case songSelect => exact Laws.EncodedKind.songSelect _ _
  case tuneRequest => exact Laws.EncodedKind.tuneRequest _
  case midiClock => exact Laws.EncodedKind.midiClock _
  case midiTick => exact Laws.EncodedKind.midiTick _
  case songStart => exact Laws.EncodedKind.songStart _
  case songContinue => exact Laws.EncodedKind.songContinue _
  case songStop => exact Laws.EncodedKind.songStop _
  case sensing => exact Laws.EncodedKind.sensing _
  case reset => exact Laws.EncodedKind.reset _
  case unhandled => exact Laws.EncodedKind.unhandled _ _
  case setFilters => exact Laws.EncodedKind.setFilters _

/-- The canonical word of a well-formed `DECODE` instruction is classified as the instruction's kind (R77, R85). -/
theorem kind?_of_encode {i : Instr} {message timing : Word} (h : i.wellFormed = true)
    (he : encode i = .decode message timing) : i.kind? = some (classify message) := by
  obtain ⟨-, hop⟩ | ⟨-, hkind⟩ := encodedKind i h
  · rw [he] at hop
    cases hop
  · rw [hkind, he, Command.word]

/-- The canonical word is classified as its kind, so the decoder takes the fields of the kind's format, and these are the
operands the word was written from. -/
theorem decode_encode {i : Instr} (h : i.wellFormed = true) : decode (encode i) = i := by
  cases i
  case setFilters => rfl
  all_goals
    have hkind := Option.some.inj (kind?_of_encode h rfl)
    simp only [encode, decode, decodeMessage, ← hkind, channelField_wordCV2, data1Field_wordCV2, data2Field_wordCV2,
      channelField_wordPC, low7Field_wordPC, channelField_wordCP, channelField_wordPB, low7Field_wordPB,
      high7Field_wordPB, beatsField_wordSP, data1Field_wordSS, statusField_wordStatus]

/-- Settles O14, by `decode_encode`. -/
theorem decodeOfEncodeIsTheInstruction : Obligations.DecodeOfEncodeIsTheInstruction := fun _ => decode_encode

/-- Settles O22: the number of a command is below 2 ^ 65, so it is read as the command it was written from, and that is the
canonical one. -/
theorem tableWordOfEncodedBitsIsTheInstruction : Obligations.TableWordOfEncodedBitsIsTheInstruction := by
  intro i h
  have hlt : encodeBits i < 2 ^ 65 := Command.toBits_lt (encode i)
  have hcommand : Command.ofBits (encodeBits i) = encode i := Command.ofBits_toBits (encode i)
  rw [decodeTableWord, Nat.mod_eq_of_lt hlt, decodeBits, if_pos hlt, hcommand, decode_encode h]
  rfl

/-- Settles O15: only `unhandled` has a check, and the status bytes that reach it are those of format `UNH` (R70). -/
theorem everyCommandDecodesWellFormed : Obligations.EveryCommandDecodesWellFormed := by
  intro c
  cases c with
  | setFilters mask => rfl
  | decode message timing =>
    cases hk : classify message <;> simp only [decode, decodeMessage, hk, Instr.wellFormed]
    case unhandled => rwa [classify_eq_status, classifyStatus_unhandled] at hk

/-! ## The opcode map (R78, R79) -/

/-- A row reads only the status byte of a word. -/
theorem covers_eq_covers_status {r : OpcodeRow} (hr : r ∈ opcodeRows) (message : Word) :
    r.covers message = r.covers ((statusField message).setWidth 32) := by
  have hmask : ∀ r ∈ opcodeRows, r.mask = (r.mask.setWidth 8).setWidth 32 := by decide
  rw [OpcodeRow.covers, OpcodeRow.covers, hmask r hr, and_low_mask]

/-- The rows that cover a word are one row, and its kind is that of `classify`: a fact about the 256 status bytes. -/
theorem kinds_of_rows_covering (message : Word) :
    (opcodeRows.filter (·.covers message)).map (·.kind) = [classify message] := by
  have hstatus : ∀ status : Byte,
      (opcodeRows.filter (·.covers (status.setWidth 32))).map (·.kind) = [classifyStatus status] := by decide
  rw [List.filter_congr fun r hr => covers_eq_covers_status hr message, hstatus, classify_eq_status]

/-- Settles O18: the rows that cover the word are a list of one row (`kinds_of_rows_covering`). -/
theorem opcodeRowsPartitionTheWords : Obligations.OpcodeRowsPartitionTheWords := by
  intro message
  obtain ⟨r, hrows, hkind⟩ := List.map_eq_singleton_iff.mp (kinds_of_rows_covering message)
  have hmem (r' : OpcodeRow) : r' ∈ opcodeRows.filter (·.covers message) ↔ r' = r := by rw [hrows, List.mem_singleton]
  obtain ⟨hr, hmatch⟩ := List.mem_filter.mp ((hmem r).mpr rfl)
  exact ⟨r, hr, hmatch, hkind, fun r' hr' hmatch' => (hmem r').mp (List.mem_filter.mpr ⟨hr', hmatch'⟩)⟩

/-! ## Encoding a decoded word (R63 to R70, R80)

A word written from the fields of a message puts neighbouring slices of the message together again
(`extractLsb'_append_low`), so that what is left is the message's low bits below zeros, which is the message masked. -/

/-- The slice just above the low bits of a word, put before them, gives more of the low bits. -/
theorem extractLsb'_append_low (m : Word) (n k : Nat) :
    m.extractLsb' n k ++ m.extractLsb' 0 n = m.extractLsb' 0 (k + n) :=
  BitVec.extractLsb'_append_extractLsb'_eq_extractLsb' (Nat.zero_add n).symm

section decodedFields

variable (m : Word)

/-- The status byte is its class nibble and its channel nibble (R62, R71). -/
theorem classNibble_append_channelField : (statusField m).extractLsb' 4 4 ++ channelField m = statusField m := by
  rw [statusField, channelField, BitVec.extractLsb'_extractLsb'_of_le (by decide), extractLsb'_append_low]

theorem wordCV2_fields {cls : BitVec 4} (h : (statusField m).extractLsb' 4 4 = cls) :
    wordCV2 cls (channelField m) (data1Field m) (data2Field m) = m &&& 0x00FFFFFF := by
  rw [wordCV2, ← h, classNibble_append_channelField]
  simp only [BitVec.append_assoc, BitVec.cast_eq, statusField, data1Field, data2Field, extractLsb'_append_low]
  exact (BitVec.and_setWidth_allOnes 8 24 m).symm

theorem wordPC_fields (h : (statusField m).extractLsb' 4 4 = 0xC#4) :
    wordPC (channelField m) (low7Field m) = m &&& 0x00007FFF := by
  rw [wordPC, ← h, classNibble_append_channelField]
  simp only [BitVec.append_assoc, BitVec.cast_eq, statusField, low7Field, extractLsb'_append_low]
  exact (BitVec.and_setWidth_allOnes 17 15 m).symm

theorem wordCP_fields (h : (statusField m).extractLsb' 4 4 = 0xD#4) : wordCP (channelField m) = m &&& 0x000000FF := by
  rw [wordCP, ← h, classNibble_append_channelField]
  exact (BitVec.and_setWidth_allOnes 24 8 m).symm

/-- Format `PB` ignores bit 15 between its two data fields (R66), so the message and the mask are cut into four slices. -/
theorem wordPB_fields (h : (statusField m).extractLsb' 4 4 = 0xE#4) :
    wordPB (channelField m) (low7Field m) (high7Field m) = m &&& 0x007F7FFF := by
  have hm : m.extractLsb' 23 9 ++ (m.extractLsb' 16 7 ++ (m.extractLsb' 15 1 ++ m.extractLsb' 0 15)) = m := by
    simp only [extractLsb'_append_low]
    exact BitVec.extractLsb'_eq_self
  have hmask : 0#9 ++ (BitVec.allOnes 7 ++ (0#1 ++ BitVec.allOnes 15)) = (0x007F7FFF : Word) := by decide
  rw [wordPB, ← h, classNibble_append_channelField]
  calc _ = 0#9 ++ (m.extractLsb' 16 7 ++ (0#1 ++ m.extractLsb' 0 15)) := by
        simp only [BitVec.append_assoc, BitVec.cast_eq, statusField, low7Field, high7Field, extractLsb'_append_low]
    _ = (m.extractLsb' 23 9 ++ (m.extractLsb' 16 7 ++ (m.extractLsb' 15 1 ++ m.extractLsb' 0 15))) &&&
          (0#9 ++ (BitVec.allOnes 7 ++ (0#1 ++ BitVec.allOnes 15))) := by
        simp only [BitVec.and_append, BitVec.and_zero, BitVec.and_allOnes]
    _ = m &&& 0x007F7FFF := congrArg₂ (· &&& ·) hm hmask

theorem wordSP_fields (h : statusField m = 0xF2#8) : wordSP (beatsField m) = m &&& 0x000FFFFF := by
  rw [wordSP, ← h]
  simp only [BitVec.append_assoc, BitVec.cast_eq, statusField, beatsField, extractLsb'_append_low]
  exact (BitVec.and_setWidth_allOnes 12 20 m).symm

theorem wordSS_fields (h : statusField m = 0xF3#8) : wordSS (data1Field m) = m &&& 0x0000FFFF := by
  rw [wordSS, ← h]
  simp only [BitVec.append_assoc, BitVec.cast_eq, statusField, data1Field, extractLsb'_append_low]
  exact (BitVec.and_setWidth_allOnes 16 16 m).symm

theorem wordStatus_statusField : wordStatus (statusField m) = m &&& 0x000000FF :=
  (BitVec.and_setWidth_allOnes 24 8 m).symm

end decodedFields

/-- The kind of a message tells the part of the status byte that its instruction does not keep. -/
theorem kindHasStatus_classify (message : Word) : kindHasStatus (classify message) (statusField message) = true := by
  rw [classify_eq_status]
  exact kindHasStatus_classifyStatus _

theorem encode_decode (message timing : Word) :
    encode (decode (.decode message timing)) = .decode (message &&& (classify message).significantBits) timing := by
  have hstatus := kindHasStatus_classify message
  cases hk : classify message <;>
    simp only [hk, kindHasStatus, beq_iff_eq] at hstatus <;>
    simp only [decode, decodeMessage, hk, encode, Kind.significantBits, Command.decode.injEq, and_true]
  case noteOff | noteOn | keyPressure | controlChange => exact wordCV2_fields message hstatus
  case programChange => exact wordPC_fields message hstatus
  case channelPressure => exact wordCP_fields message hstatus
  case pitchWheel => exact wordPB_fields message hstatus
  case songPosition => exact wordSP_fields message hstatus
  case songSelect => exact wordSS_fields message hstatus
  case unhandled => exact wordStatus_statusField message
  all_goals
    have hword := wordStatus_statusField message
    rwa [hstatus] at hword

/-- Settles O17: `encode_decode`, one word lemma for each format. -/
theorem encodeOfDecodeClearsIgnoredBits : Obligations.EncodeOfDecodeClearsIgnoredBits := encode_decode

/-! ## Ignored bits (R80) -/

/-- No format ignores a bit of the status byte. -/
theorem statusField_and_significantBits (message : Word) (k : Kind) :
    statusField (message &&& k.significantBits) = statusField message := by
  have hk : k.significantBits.extractLsb' 0 8 = BitVec.allOnes 8 := by cases k <;> decide
  rw [statusField, BitVec.extractLsb'_and, hk, BitVec.and_allOnes, statusField]

/-- Clearing the ignored bits of a word gives its canonical word (`encode_decode`), which decodes to the same instruction
(`decode_encode`). -/
theorem decode_and_significantBits (message timing : Word) :
    decode (.decode (message &&& (classify message).significantBits) timing) = decode (.decode message timing) := by
  rw [← encode_decode, decode_encode (everyCommandDecodesWellFormed _)]

/-- Settles O16: the two words have one status byte, so one kind, and with the ignored bits of that kind cleared they are
one word (`decode_and_significantBits`). -/
theorem ignoredBitsDoNotMatter : Obligations.IgnoredBitsDoNotMatter := by
  intro message message' timing h
  have hstatus : statusField message = statusField message' := by
    rw [← statusField_and_significantBits message (classify message), h, statusField_and_significantBits]
  have hclass : classify message = classify message' := by
    rw [classify_eq_status, hstatus, ← classify_eq_status]
  rw [← decode_and_significantBits message, h, hclass, decode_and_significantBits]

/-! ## The canonical words as or and shift (R85)

Setting a word of 32 bits to the width 32 changes nothing, and brings it into the shape of the library's lemma on the parts
of an append. -/

section orAndShift

variable (cls : BitVec 4) (channel : Channel) (first second : Byte) (program lsb msb : BitVec 7) (beats : BitVec 12)

theorem wordCV2_eq_or : wordCV2 cls channel first second =
    second.setWidth 32 <<< 16 ||| first.setWidth 32 <<< 8 ||| cls.setWidth 32 <<< 4 ||| channel.setWidth 32 := by
  rw [← BitVec.setWidth_eq (wordCV2 cls channel first second), wordCV2]
  simp only [BitVec.setWidth_append_eq_shiftLeft_setWidth_or, BitVec.shiftLeft_or_distrib, ← BitVec.shiftLeft_add]
  simp [BitVec.or_assoc]

theorem wordPC_eq_or : wordPC channel program = program.setWidth 32 <<< 8 ||| 0xC0 ||| channel.setWidth 32 := by
  rw [← BitVec.setWidth_eq (wordPC channel program), wordPC]
  simp only [BitVec.setWidth_append_eq_shiftLeft_setWidth_or, BitVec.shiftLeft_or_distrib, ← BitVec.shiftLeft_add]
  simp [BitVec.or_assoc]

theorem wordCP_eq_or : wordCP channel = 0xD0 ||| channel.setWidth 32 := by
  rw [← BitVec.setWidth_eq (wordCP channel), wordCP]
  simp only [BitVec.setWidth_append_eq_shiftLeft_setWidth_or]
  simp

theorem wordPB_eq_or : wordPB channel lsb msb =
    msb.setWidth 32 <<< 16 ||| lsb.setWidth 32 <<< 8 ||| 0xE0 ||| channel.setWidth 32 := by
  rw [← BitVec.setWidth_eq (wordPB channel lsb msb), wordPB]
  simp only [BitVec.setWidth_append_eq_shiftLeft_setWidth_or, BitVec.shiftLeft_or_distrib, ← BitVec.shiftLeft_add]
  simp [BitVec.or_assoc]

theorem wordSP_eq_or : wordSP beats = beats.setWidth 32 <<< 8 ||| 0xF2 := by
  rw [← BitVec.setWidth_eq (wordSP beats), wordSP]
  simp only [BitVec.setWidth_append_eq_shiftLeft_setWidth_or]
  simp

theorem wordSS_eq_or : wordSS first = first.setWidth 32 <<< 8 ||| 0xF3 := by
  rw [← BitVec.setWidth_eq (wordSS first), wordSS]
  simp only [BitVec.setWidth_append_eq_shiftLeft_setWidth_or]
  simp

end orAndShift

/-- Settles O19, format by format; the words without data are constants. -/
theorem canonicalWordsAreThoseOfTheNotation : Obligations.CanonicalWordsAreThoseOfTheNotation := by
  refine ⟨fun channel a b timing => ⟨?_, ?_, ?_, ?_⟩, fun channel program timing => ⟨?_, ?_⟩,
    fun channel value timing => ?_, fun beats song timing => ⟨?_, ?_⟩, fun timing => ?_⟩
  · exact congrArg (Command.decode · timing) (wordCV2_eq_or 0x8 channel a b)
  · exact congrArg (Command.decode · timing) (wordCV2_eq_or 0x9 channel a b)
  · exact congrArg (Command.decode · timing) (wordCV2_eq_or 0xA channel a b)
  · exact congrArg (Command.decode · timing) (wordCV2_eq_or 0xB channel a b)
  · exact congrArg (Command.decode · timing) (wordPC_eq_or channel program)
  · exact congrArg (Command.decode · timing) (wordCP_eq_or channel)
  · exact congrArg (Command.decode · timing) (wordPB_eq_or channel _ _)
  · exact congrArg (Command.decode · timing) (wordSP_eq_or beats)
  · exact congrArg (Command.decode · timing) (wordSS_eq_or song)
  · exact ⟨rfl, rfl, rfl, rfl, rfl, rfl, rfl, rfl⟩

end Sys2Proof

namespace Sys2Proof.Machine

/-- Settles O24: the pins ask for the command that their three fields present, and taking them leaves the later ones. -/
theorem stepRunsTheDecodedCommand : Obligations.StepRunsTheDecodedCommand := by
  intro s p rest hinputs hrst hvalid
  have haction : s.action = .run (decode (.ofFields p.cmdOp p.cmdWord p.cmdTiming)) := by
    simp [State.action, hinputs, PinsIn.action, PinsIn.command, hrst, hvalid]
  have htaken : s.taken = { s with inputs := rest } := by rw [State.taken, hinputs, List.tail_cons]
  simp only [step, haction, htaken, Command.ofFields]

end Sys2Proof.Machine

namespace Sys2Proof

/-! ## Channel-voice words: kind, fields and the pitch value (R63 to R66, R74, R77) -/

/-- A word that a row of the opcode map matches is of the row's kind: the rows partition the words (O18). -/
theorem classify_of_row {message pattern mask : Word} {k : Kind} (hr : ⟨pattern, mask, k⟩ ∈ opcodeRows)
    (h : message &&& mask = pattern) : classify message = k := by
  obtain ⟨r, -, -, hkind, hunique⟩ := opcodeRowsPartitionTheWords message
  rw [← hkind, ← hunique _ hr (beq_iff_eq.mpr h)]

section decodeOfKind

variable {message : Word} (timing : Word)

theorem decode_noteOff (hk : classify message = .noteOff) : decode (.decode message timing) =
    .noteOff (channelField message) (data1Field message) (data2Field message) timing := by
  simp only [decode, decodeMessage, hk]

theorem decode_noteOn (hk : classify message = .noteOn) : decode (.decode message timing) =
    .noteOn (channelField message) (data1Field message) (data2Field message) timing := by
  simp only [decode, decodeMessage, hk]

theorem decode_keyPressure (hk : classify message = .keyPressure) : decode (.decode message timing) =
    .keyPressure (channelField message) (data1Field message) (data2Field message) timing := by
  simp only [decode, decodeMessage, hk]

theorem decode_controlChange (hk : classify message = .controlChange) : decode (.decode message timing) =
    .controlChange (channelField message) (data1Field message) (data2Field message) timing := by
  simp only [decode, decodeMessage, hk]

theorem decode_programChange (hk : classify message = .programChange) : decode (.decode message timing) =
    .programChange (channelField message) (low7Field message) timing := by
  simp only [decode, decodeMessage, hk]

theorem decode_channelPressure (hk : classify message = .channelPressure) : decode (.decode message timing) =
    .channelPressure (channelField message) timing := by
  simp only [decode, decodeMessage, hk]

theorem decode_pitchWheel (hk : classify message = .pitchWheel) : decode (.decode message timing) =
    .pitchWheel (channelField message) (low7Field message) (high7Field message) timing := by
  simp only [decode, decodeMessage, hk]

end decodeOfKind

/-- Bit 7 of a data byte is what the mask `0x7F` clears and what a 7-bit slice of the message leaves out (R66). -/
theorem toNat_extractLsb'_seven (message : Word) (start : Nat) :
    (message.extractLsb' start 7).toNat = (message.extractLsb' start 8 &&& 0x7F).toNat := by
  have hmask : (0x7F : Byte).toNat = 2 ^ 7 - 1 := rfl
  rw [BitVec.toNat_and, hmask, Nat.and_two_pow_sub_one_eq_mod, BitVec.extractLsb'_toNat, BitVec.extractLsb'_toNat,
    Nat.mod_mod_of_dvd _ (Nat.pow_dvd_pow 2 (by decide))]

namespace Machine

theorem toNat_pitchValue (lsb msb : BitVec 7) : (pitchValue lsb msb).toNat = msb.toNat <<< 7 + lsb.toNat := by
  rw [pitchValue, BitVec.toNat_append, Nat.shiftLeft_add_eq_or_of_lt lsb.isLt]

/-- Reassembling the two halves of a value gives the value (R108). -/
theorem pitchValue_halves (value : BitVec 14) :
    pitchValue (value.extractLsb' 0 7) (value.extractLsb' 7 7) = value :=
  (BitVec.extractLsb'_append_extractLsb'_eq_extractLsb' rfl).trans BitVec.extractLsb'_eq_self

/-- The source's formula of the pitch value (R106) as a word: both masks, shifted down, are clear from bit 14 up, so the
14 bits of `pitchFormula_eq_pitchValue` are all of it. -/
theorem pitchValue_setWidth_eq_pitchFormula (message : Word) :
    (pitchValue (low7Field message) (high7Field message)).setWidth 32 =
      ((message &&& 0x007F0000) >>> 9) ||| ((message &&& 0x00007F00) >>> 8) := by
  have hmask : ∀ i < 32, 14 ≤ i →
      (0x007F0000#32).getLsbD (9 + i) = false ∧ (0x00007F00#32).getLsbD (8 + i) = false := by decide
  rw [← Reference.pitchFormula_eq_pitchValue]
  refine BitVec.eq_of_getLsbD_eq fun i hi => ?_
  rw [BitVec.getLsbD_setWidth, BitVec.getLsbD_setWidth]
  by_cases h : i < 14
  · simp [h, hi]
  · obtain ⟨hhigh, hlow⟩ := hmask i hi (Nat.not_lt.mp h)
    simp [h, hhigh, hlow]

/-- Settles O20: a 7-bit half is its data byte with bit 7 cleared; and the word of a value is the canonical word of the
value's two halves, which `decode_encode` reads back. -/
theorem pitchRoundTrip : Obligations.PitchRoundTrip := by
  refine ⟨fun message timing hk => ⟨_, _, _, decode_pitchWheel timing hk, BitVec.isLt _, ?_⟩,
    fun channel value timing => ⟨_, _, ?_, pitchValue_halves value⟩⟩
  · rw [toNat_pitchValue, low7Field, high7Field, toNat_extractLsb'_seven, toNat_extractLsb'_seven]
  · rw [← wordPB_eq_or]
    exact decode_encode (i := .pitchWheel channel _ _ timing) rfl

/-! ## Channel-voice steps (R100 to R106)

`exec` of a channel-voice kind is `State.decoded` with the kind's decode result and its event behind the gate;
`PROGRAMCHANGE` alone goes on to write `PROG`. -/

section gives

variable (s : State) (dec : Decoded) (timing : Word)

/-- Finishing a `DECODE` step gives its two results and leaves the registers and the later pins (R170, R174). -/
theorem gives_decoded (ev : Option Event) :
    Gives (.next (s.decoded dec ev timing)) s s.prog s.filter (some dec) ev :=
  ⟨_, rfl, s.decoded_prog dec ev timing, s.decoded_filter dec ev timing, s.decoded_inputs dec ev timing,
    s.decoded_dec dec ev timing, s.decoded_ev dec ev timing⟩

/-- The same with an event behind the gate (R164). -/
theorem gives_decoded_gated (c : Category) (event : Event) :
    Gives (.next (s.decoded dec (s.gated c event) timing)) s s.prog s.filter (some dec)
      (if enabledIn s.filter c then some event else none) :=
  gives_decoded s dec timing (s.gated c event)

end gives

/-- Writing `PROG` at the end of a step changes what the step gives in `PROG` only (R25). -/
theorem Gives.writeProg {s t : State} {prog : Program} {filter : Word} {dec : Option Decoded} {ev : Option Event}
    (h : Gives (.next t) s prog filter dec ev) (program : Program) :
    Gives (.next (t.writeProg program)) s program filter dec ev := by
  obtain ⟨_, ⟨⟩, -, hfilter, hinputs, hdec, hev⟩ := h
  exact ⟨_, rfl, t.writeProg_prog program, hfilter, hinputs, hdec, hev⟩

/-- Settles O1: the row `0x80` of the opcode map, and the gate of the `Note` category. -/
theorem noteOffIsGatedByNote : Obligations.NoteOffIsGatedByNote :=
  ⟨fun _ timing h => decode_noteOff timing (classify_of_row (by decide) h),
    fun _ _ _ timing s => gives_decoded_gated s _ timing .note _⟩

/-- Settles O2: as for `NOTEOFF`, with the row `0x90`; nothing looks at the velocity. -/
theorem noteOnIsGatedByNote : Obligations.NoteOnIsGatedByNote :=
  ⟨fun _ timing h => decode_noteOn timing (classify_of_row (by decide) h),
    fun _ _ _ timing s => gives_decoded_gated s _ timing .note _⟩

/-- Settles O3: the row `0xA0`, and again the gate of the `Note` category. -/
theorem keyPressureIsGatedByNote : Obligations.KeyPressureIsGatedByNote :=
  ⟨fun _ timing h => decode_keyPressure timing (classify_of_row (by decide) h),
    fun _ _ _ timing s => gives_decoded_gated s _ timing .note _⟩

/-- Settles O4: the row `0xB0`, and the gate of the `ControlChange` category. -/
theorem controlChangeIsGatedByControlChange : Obligations.ControlChangeIsGatedByControlChange :=
  ⟨fun _ timing h => decode_controlChange timing (classify_of_row (by decide) h),
    fun _ _ _ timing s => gives_decoded_gated s _ timing .controlChange _⟩

/-- Settles O5: the results are those of a gated `DECODE` step from the `PROG` of its start; the write of `PROG` comes
after and asks no gate. -/
theorem programChangeAlwaysWritesProg : Obligations.ProgramChangeAlwaysWritesProg :=
  ⟨fun _ timing h => decode_programChange timing (classify_of_row (by decide) h),
    fun _ program timing s => (gives_decoded_gated s _ timing .programChange _).writeProg program⟩

/-- Settles O6: the row `0xD0`, and a step whose event is none before any gate. -/
theorem channelPressureIsDecodeOnly : Obligations.ChannelPressureIsDecodeOnly :=
  ⟨fun _ timing h => decode_channelPressure timing (classify_of_row (by decide) h),
    fun _ timing s => gives_decoded s _ timing none⟩

/-- Settles O7: the row `0xE0`, the source's formula by `pitchValue_setWidth_eq_pitchFormula`, and the gate of the
`PitchWheel` category. -/
theorem pitchWheelReassemblesAndIsGated : Obligations.PitchWheelReassemblesAndIsGated :=
  ⟨fun message timing h => ⟨decode_pitchWheel timing (classify_of_row (by decide) h),
      pitchValue_setWidth_eq_pitchFormula message⟩,
    fun _ _ _ timing s => gives_decoded_gated s _ timing .pitchWheel _⟩

end Machine

end Sys2Proof

namespace Sys2Proof

/-! ## System words: kind and fields (R67 to R70, R77) -/

section decodeSystem

variable {message : Word} (timing : Word)

theorem decode_songPosition (hk : classify message = .songPosition) :
    decode (.decode message timing) = .songPosition (beatsField message) timing := by
  simp only [decode, decodeMessage, hk]

theorem decode_songSelect (hk : classify message = .songSelect) :
    decode (.decode message timing) = .songSelect (data1Field message) timing := by
  simp only [decode, decodeMessage, hk]

theorem decode_unhandled (hk : classify message = .unhandled) :
    decode (.decode message timing) = .unhandled (statusField message) timing := by
  simp only [decode, decodeMessage, hk]

/-- A word is the instruction of its status byte `code` alone when the kind of `code` has no data: the bits above are
ignored (R69, R80; O16). -/
theorem decode_of_dataless_code {code : Word} (hcode : (classify code).significantBits = 0xFF)
    (h : message &&& 0xFF = code) : decode (.decode message timing) = decode (.decode code timing) := by
  refine (ignoredBitsDoNotMatter code message timing ?_).symm
  rw [hcode, ← h, BitVec.and_assoc, BitVec.and_self]

end decodeSystem

namespace Machine

/-! ## System steps (R130 to R140)

`exec` of a system kind is `State.decoded` with the kind's decode result and an event that no gate decides: none, but for
`RESET`. -/

/-- Settles O8: the row `0xF2`; the clocks are `songClocks`, whose product does not wrap (`songClocks_toNat`). -/
theorem songPositionIsDecodeOnly : Obligations.SongPositionIsDecodeOnly :=
  ⟨fun _ timing h => decode_songPosition timing (classify_of_row (by decide) h),
    fun beats timing s => ⟨songClocks beats, songClocks_toNat beats, gives_decoded s _ timing none⟩⟩

/-- Settles O9: the row `0xF3`, whose song is the whole data byte, and a step without an event. -/
theorem songSelectIsDecodeOnly : Obligations.SongSelectIsDecodeOnly :=
  ⟨fun _ timing h => decode_songSelect timing (classify_of_row (by decide) h),
    fun _ timing s => gives_decoded s _ timing none⟩

/-- Settles O10: each word is the instruction of its code (`decode_of_dataless_code`), and each step is one without an
event. -/
theorem datalessKindsAreDecodeOnly : Obligations.DatalessKindsAreDecodeOnly := by
  refine ⟨fun message timing => ⟨?_, ?_, ?_, ?_, ?_, ?_, ?_⟩, fun timing s => ⟨?_, ?_, ?_, ?_, ?_, ?_, ?_⟩⟩
  iterate 7 exact decode_of_dataless_code timing rfl
  iterate 7 exact gives_decoded s _ timing none

/-- Settles O11: the code `0xFF`, and a step whose event is `Reset` with no gate before it. -/
theorem resetMessageIsNeverMasked : Obligations.ResetMessageIsNeverMasked :=
  ⟨fun _ timing => decode_of_dataless_code timing rfl,
    fun timing s => gives_decoded s _ timing (some .reset)⟩

/-- Settles O12: each way for a status byte to be unlisted is one of the seven `UNHANDLED` rows of the opcode map (R79). -/
theorem unhandledWordsAreDroppedSilently : Obligations.UnhandledWordsAreDroppedSilently := by
  refine ⟨fun message timing h => decode_unhandled timing ?_, fun _ timing s => gives_decoded s _ timing none⟩
  obtain h | h | h | h | h | h | h := h <;> exact classify_of_row (by decide) h

end Machine

end Sys2Proof

namespace Sys2Proof.Machine

/-- A decode result gives rise to an event of its own kind only (R164). -/
theorem kind_of_event? {d : Decoded} {e : Event} (h : d.event? = some e) : e.kind = d.kind := by
  cases d <;> cases h <;> rfl

/-- Where nothing is driven, the invariant has nothing to say. -/
theorem portsCoherent_of_silent {s : State} (h : s.out = Outputs.silent) : PortsCoherent s := by
  constructor <;> simp [h]

section outputs

variable {o : Outputs}

theorem eventPins_of_some {e : Event} (h : o.ev = some e) : o.eventPins =
    { valid := true, tag := e.tag, channel := e.channelPin, a := e.aPin, b := e.bPin, timing := o.evTiming } := by
  simp only [Outputs.eventPins, h]

theorem eventPins_of_none (h : o.ev = none) : o.eventPins =
    { valid := false, tag := 0, channel := 0, a := 0, b := 0, timing := 0 } := by
  simp only [Outputs.eventPins, h]

end outputs

/-! A run of a state to which all of the pins are presented and nothing more. -/

section presentedPins

variable (s : State) (pins : List PinsIn)

theorem trace_with_inputs : trace pins.length { s with inputs := pins } = (Reference.run s.toArch pins).2 := by
  simpa using Reference.trace_eq_run pins [] s.toArch s.out

theorem core_run_with_inputs : ∃ t, Host.Core.run core pins.length { s with inputs := pins } = .next t ∧
    t.pair = (Reference.run s.toArch pins).1 := by
  have hrun := Reference.core_run_eq_run pins [] s.toArch s.out
  rw [List.append_nil] at hrun
  exact ⟨_, hrun, rfl⟩

end presentedPins

end Sys2Proof.Machine

namespace Sys2Proof.Reference

open Sys2Proof.Machine

/-! ## The results of a message (R164, R174) -/

/-- The decode result is of the message's kind (R174). -/
theorem decoded_kind (a : Pair) (message : Word) : (decoded a message).kind = classify message := by
  cases hk : classify message <;> simp only [decoded, hk, Decoded.kind]

/-- The event of a message is the one its decode result gives rise to, where the column "dispatched when" of R164 says
that there is one. -/
theorem event_eq_ite_dispatchesUnder (a : Pair) (message : Word) :
    event a message =
      if dispatchesUnder a.filter (classify message) then (decoded a message).event? else none := by
  cases hk : classify message <;>
    simp only [event, decoded, hk, dispatchesUnder, Decoded.event?, pitchFormula_eq_pitchValue, ite_self, if_true] <;>
    rfl

theorem event?_decoded_of_event {a : Pair} {message : Word} {e : Event} (h : event a message = some e) :
    (decoded a message).event? = some e := by
  rw [event_eq_ite_dispatchesUnder] at h
  split at h
  · exact h
  · cases h

/-- The event variant is that of the message's kind (R164). -/
theorem kind_of_event {a : Pair} {message : Word} {e : Event} (h : event a message = some e) :
    e.kind = classify message := by
  rw [kind_of_event? (event?_decoded_of_event h), decoded_kind]

/-! ## The ports' invariant -/

/-- A command's step leaves the ports coherent: an event is that of the decode result (`event?_decoded_of_event`), and
the kind of the decode result tells that `PROG` was written, or that the clocks are `songClocks`. -/
theorem portsCoherent_step (a : Pair) (c : Command) (inputs : List PinsIn) :
    PortsCoherent { toArch := (step a c).1, inputs := inputs, out := (step a c).2 } := by
  cases c with
  | setFilters mask => exact portsCoherent_of_silent rfl
  | decode message timing =>
    refine ⟨nofun, ?_, fun e he => ⟨_, rfl, event?_decoded_of_event he⟩, ?_, ?_⟩
    · intro (hev : event a message = none)
      simp [step, hev]
    · intro channel program old hdec
      have hd : decoded a message = .programChange channel program old := Option.some.inj hdec
      have hk : classify message = .programChange := by rw [← decoded_kind a, hd, Decoded.kind]
      simp only [decoded, hk, Decoded.programChange.injEq] at hd
      simp only [step, hk, if_true, hd]
    · intro beats clocks hdec
      have hd : decoded a message = .songPosition beats clocks := Option.some.inj hdec
      have hk : classify message = .songPosition := by rw [← decoded_kind a, hd, Decoded.kind]
      simp only [decoded, hk, Decoded.songPosition.injEq, clocksFormula_eq_songClocks] at hd
      obtain ⟨rfl, rfl⟩ := hd
      exact songClocks_toNat _

/-- So does a step on any pins: reset and idle steps drive nothing (R176, R211). -/
theorem portsCoherent_pinsStep (a : Pair) (p : PinsIn) (inputs : List PinsIn) :
    PortsCoherent { toArch := (pinsStep a p).1, inputs := inputs, out := (pinsStep a p).2 } := by
  obtain hr | ⟨hr, hc⟩ | ⟨-, c, hc⟩ := pins_cases p
  · rw [pinsStep_of_rst a hr]
    exact portsCoherent_of_silent rfl
  · rw [pinsStep_of_no_command a hr hc]
    exact portsCoherent_of_silent rfl
  · rw [pinsStep_of_command a hc]
    exact portsCoherent_step a c inputs

/-! ## Timing values (R173) -/

/-- A step with another timing value goes to the same pair and gives the same decode result and event. -/
theorem pinsStep_withTiming (a : Pair) (p : PinsIn) (timing : Word) :
    (pinsStep a (p.withTiming timing)).1 = (pinsStep a p).1 ∧
      (pinsStep a (p.withTiming timing)).2.dec = (pinsStep a p).2.dec ∧
      (pinsStep a (p.withTiming timing)).2.ev = (pinsStep a p).2.ev := by
  obtain ⟨rst, cmdValid, cmdOp, word, _⟩ := p
  cases rst with
  | true => exact ⟨rfl, rfl, rfl⟩
  | false =>
    cases cmdValid with
    | false => exact ⟨rfl, rfl, rfl⟩
    | true => cases cmdOp <;> exact ⟨rfl, rfl, rfl⟩

/-- So does a run whose pins differ in timing values only, step for step. -/
theorem run_withTiming (a : Pair) {pins pins' : List PinsIn}
    (h : List.Forall₂ (fun p p' => ∃ timing, p' = p.withTiming timing) pins pins') :
    (run a pins).1 = (run a pins').1 ∧
      (run a pins).2.map (fun o => (o.dec, o.ev)) = (run a pins').2.map (fun o => (o.dec, o.ev)) := by
  induction h generalizing a with
  | nil => exact ⟨rfl, rfl⟩
  | @cons p _ _ _ hp _ ih =>
    obtain ⟨timing, rfl⟩ := hp
    obtain ⟨hpair, hdec, hev⟩ := pinsStep_withTiming a p timing
    obtain ⟨hend, hresults⟩ := ih (pinsStep a p).1
    simp only [run, List.map_cons, hpair, hdec, hev, hend, hresults, and_self]

end Sys2Proof.Reference

namespace Sys2Proof.Machine

open Sys2Proof.Reference (step_eq_pinsStep exec_decode_eq_step)

/-- Settles O41: `step_eq_pinsStep` names the next state. -/
theorem stepRefinesTheWrittenOutStep : Obligations.StepRefinesTheWrittenOutStep := by
  rintro ⟨a, inputs, out⟩ p rest (rfl : inputs = p :: rest)
  exact ⟨_, step_eq_pinsStep a p rest out, rfl, rfl, rfl⟩

/-- Settles O40: on pins the step is `pinsStep`, which leaves the ports coherent; without pins it is idle. -/
theorem stepKeepsPortsCoherent : Obligations.StepKeepsPortsCoherent := by
  rintro ⟨a, inputs, out⟩ t h
  cases inputs with
  | nil =>
    cases h
    exact portsCoherent_of_silent rfl
  | cons p rest =>
    rw [step_eq_pinsStep] at h
    cases h
    exact Reference.portsCoherent_pinsStep a p rest

/-- Settles O46: both runs are `Reference.run` on the pair, of which `run_withTiming` says it. -/
theorem timingInfluencesNothingElse : Obligations.TimingInfluencesNothingElse := by
  intro pins pins' s h
  obtain ⟨hpair, hresults⟩ := Reference.run_withTiming s.toArch h
  obtain ⟨t, ht, htpair⟩ := core_run_with_inputs s pins
  obtain ⟨t', ht', htpair'⟩ := core_run_with_inputs s pins'
  rw [trace_with_inputs, trace_with_inputs]
  exact ⟨hresults, t, t', ht, ht', by rw [htpair, hpair, htpair']⟩

/-! ## The gate and the timing sideband (R163, R164, R173) -/

/-- Settles O30: the machine's event is that of R177, which is there when the column of R164 says so (`event_isSome`)
and is of the message's kind (`kind_of_event`). -/
theorem theGateTable : Obligations.TheGateTable := by
  intro message timing s
  exact ⟨_, exec_decode_eq_step (.decode message timing) s.toArch s.inputs s.out, Reference.event_isSome _ _,
    fun _ => Reference.kind_of_event⟩

/-- Settles O31: each of the eighteen `DECODE` arms hands its timing operand to `State.decoded`, where the sideband is
the one of R173; and `SETFILTERS` gives nothing out. -/
theorem eventTimingIsPassedThrough : Obligations.EventTimingIsPassedThrough := by
  intro i s
  cases i
  case setFilters mask => exact ⟨s.silent.writeFilter mask, rfl, rfl⟩
  all_goals exact ⟨_, rfl, rfl⟩

/-- Settles O28: a flag is the bit of `FILTER` at its category's position. -/
theorem categoryFlagsAreBitsOfFilter : Obligations.CategoryFlagsAreBitsOfFilter :=
  fun _ => ⟨rfl, rfl, rfl, rfl, rfl, rfl⟩

/-- Settles O13: a silent step that writes the mask. -/
theorem setFiltersReplacesTheMask : Obligations.SetFiltersReplacesTheMask := ⟨fun _ => rfl, fun _ _ => rfl⟩

/-- Settles O26: pins without a command are `pinsStep_of_no_command`; where there are no pins the step is idle by
definition. -/
theorem idleStepChangesNothing : Obligations.IdleStepChangesNothing := by
  constructor
  · rintro ⟨a, inputs, out⟩ p rest (rfl : inputs = p :: rest) hrst hvalid
    have hcommand : p.command = none := by simp [PinsIn.command, hvalid]
    rw [step_eq_pinsStep, Reference.pinsStep_of_no_command a hrst hcommand]
    rfl
  · rintro ⟨a, inputs, out⟩ (rfl : inputs = [])
    rfl

/-! ## The output pins (R172, R175) -/

/-- A slice of a message inside the low byte is a slice of its status byte (R61). -/
theorem extractLsb'_statusField (message : Word) {start len : Nat} (h : start + len ≤ 8) :
    (statusField message).extractLsb' start len = message.extractLsb' start len := by
  rw [statusField, BitVec.extractLsb'_extractLsb'_of_le h]

/-- The tag of an event is the slice of a status byte of its kind: three bits of the class nibble, or of the byte `0xFF`
(R172). -/
theorem tag_eq_of_kindHasStatus (e : Event) {status : Byte} (h : kindHasStatus e.kind status = true) :
    e.tag = status.extractLsb' 4 3 := by
  have hslice : status.extractLsb' 4 3 = (status.extractLsb' 4 4).extractLsb' 0 3 := by
    refine BitVec.eq_of_getLsbD_eq fun i hi => ?_
    simp [hi, Nat.lt_succ_of_lt hi]
  cases e <;> simp only [Event.kind, kindHasStatus, beq_iff_eq] at h
  case reset => rw [h]; rfl
  all_goals rw [hslice, h]; rfl

theorem tag_ne_five (e : Event) : e.tag ≠ 5 := by
  cases e <;> simp only [Event.tag] <;> decide

/-- The kind codes of R175 by status byte: a fact about its 256 values. -/
theorem kindCode_classifyStatus (status : Byte) : kindCode (classifyStatus status) =
    if classifyStatus status = .unhandled then 0
    else if status.extractLsb' 4 4 = 0xF#4 then 1#1 ++ status.extractLsb' 0 4
    else 0#1 ++ status.extractLsb' 4 4 := by
  revert status; decide

/-- Settles O36: an event has the message's kind, whose status byte shows the tag (`tag_eq_of_kindHasStatus`). -/
theorem eventTagIsReadOffTheStatusByte : Obligations.EventTagIsReadOffTheStatusByte := by
  intro message timing s
  refine ⟨_, exec_decode_eq_step (.decode message timing) s.toArch s.inputs s.out, fun hsome => ?_, fun hnone => ?_⟩
  · obtain ⟨e, he⟩ := Option.isSome_iff_exists.mp hsome
    have hstatus := kindHasStatus_classify message
    rw [← Reference.kind_of_event he] at hstatus
    rw [eventPins_of_some he]
    refine ⟨rfl, ?_, tag_ne_five e⟩
    rw [tag_eq_of_kindHasStatus e hstatus, extractLsb'_statusField message (by decide)]
  · exact eventPins_of_none (Option.not_isSome_iff_eq_none.mp (Bool.eq_false_iff.mp hnone))

/-- Settles O37: the port shows the code of the message's kind (`decoded_kind`), which its status byte determines. -/
theorem decodeKindIsReadOffTheStatusByte : Obligations.DecodeKindIsReadOffTheStatusByte := by
  intro message timing s
  refine ⟨_, exec_decode_eq_step (.decode message timing) s.toArch s.inputs s.out, rfl, ?_⟩
  have hcode := kindCode_classifyStatus (statusField message)
  rw [← classify_eq_status, extractLsb'_statusField message (by decide),
    extractLsb'_statusField message (by decide)] at hcode
  rw [← hcode, ← Reference.decoded_kind s.toArch message]
  rfl

/-! ### Reading the results back off the pins

The pins are faithful because there are readers: one that takes the event port back to the event, and one that takes the
decode-status port back to the decode result. -/

/-- The event that an event port shows, if it is valid: the tag tells the variant (R172). -/
def EventPins.event? (p : EventPins) : Option Event :=
  if p.valid then
    match p.tag.toNat with
    | 0 => some (.noteOff p.channel (p.a.setWidth 8) p.b)
    | 1 => some (.noteOn p.channel (p.a.setWidth 8) p.b)
    | 2 => some (.keyPressure p.channel (p.a.setWidth 8) p.b)
    | 3 => some (.controlChange p.channel (p.a.setWidth 8) p.b)
    | 4 => some (.programChange p.channel (p.a.setWidth 7) (p.b.setWidth 7))
    | 6 => some (.pitchWheel p.channel p.a)
    | _ => some .reset
  else none

/-- The decode result that a decode-status port shows, if it is valid: the kind code tells the variant (R175). -/
def DecodePins.decoded? (p : DecodePins) : Option Decoded :=
  if p.valid then
    match p.kind.toNat with
    | 0x08 => some (.noteOff p.channel (p.a.setWidth 8) (p.b.setWidth 8))
    | 0x09 => some (.noteOn p.channel (p.a.setWidth 8) (p.b.setWidth 8))
    | 0x0A => some (.keyPressure p.channel (p.a.setWidth 8) (p.b.setWidth 8))
    | 0x0B => some (.controlChange p.channel (p.a.setWidth 8) (p.b.setWidth 8))
    | 0x0C => some (.programChange p.channel (p.a.setWidth 7) (p.b.setWidth 7))
    | 0x0D => some (.channelPressure p.channel)
    | 0x0E => some (.pitchWheel p.channel (p.a.setWidth 14))
    | 0x12 => some (.songPosition p.b p.a)
    | 0x13 => some (.songSelect (p.a.setWidth 8))
    | 0x16 => some .tuneRequest
    | 0x18 => some .midiClock
    | 0x19 => some .midiTick
    | 0x1A => some .songStart
    | 0x1B => some .songContinue
    | 0x1C => some .songStop
    | 0x1E => some .sensing
    | 0x1F => some .reset
    | _ => some .unhandled
  else none

/-- The event port is read back as the event: no field is wider than its pins. -/
theorem event?_eventPins (o : Outputs) : o.eventPins.event? = o.ev := by
  obtain ⟨dec, ev, evTiming⟩ := o
  cases ev with
  | none => rfl
  | some e =>
    cases e <;>
      simp [Outputs.eventPins, EventPins.event?, Event.tag, Event.channelPin, Event.aPin, Event.bPin]

/-- The decode-status port is read back as the decode result. -/
theorem decoded?_decodePins (o : Outputs) : o.decodePins.decoded? = o.dec := by
  obtain ⟨dec, ev, evTiming⟩ := o
  cases dec with
  | none => rfl
  | some d =>
    cases d <;>
      simp [Outputs.decodePins, DecodePins.decoded?, Decoded.kind, kindCode, Decoded.channelPin, Decoded.aPin,
        Decoded.bPin]

/-- Settles O38: what each port shows is read back from its pins. -/
theorem pinsDetermineTheResults : Obligations.PinsDetermineTheResults := by
  refine fun o o' => ⟨fun h => ?_, fun h => ?_⟩
  · rw [← event?_eventPins o, h, event?_eventPins]
  · rw [← decoded?_decodePins o, h, decoded?_decodePins]

end Sys2Proof.Machine

namespace Sys2Proof.Machine

open Sys2Proof.Reference (exec_decode_eq_step)

/-! ## Several decoders (R200)

On its decoders a schedule acts position by position: the one at `k` takes as many total steps as the schedule names `k`. -/

/-- A run of `n` steps is `n` total steps, since every step completes (R13). -/
theorem core_run_eq_iterate_totalStep (n : Nat) (s : State) : Host.Core.run core n s = .next (totalStep^[n] s) := by
  induction n generalizing s with
  | zero => rfl
  | succ n ih => rw [core_run_succ n (step_eq_next_totalStep s), ih, Function.iterate_succ_apply]

/-- A step of the system is a total step of the decoder at its position, if there is one. -/
theorem systemStep_eq_modify (k : Nat) (system : List State) :
    systemStep k system = .next (system.modify k totalStep) := by
  rw [systemStep, List.modify_eq_set_getElem?]
  cases system[k]? with
  | none => rfl
  | some s =>
    simp only [step_eq_next_totalStep]
    rfl

/-- One step more of the decoder at `k`, before its steps of the schedule `ks`, is one more `k` at the front of it. -/
theorem mapIdx_iterate_modify (k : Nat) (ks : List Nat) (system : List State) :
    (system.modify k totalStep).mapIdx (fun j => totalStep^[ks.count j]) =
      system.mapIdx (fun j => totalStep^[(k :: ks).count j]) := by
  refine List.ext_getElem? fun j => ?_
  rw [List.getElem?_mapIdx, List.getElem?_mapIdx, List.getElem?_modify]
  by_cases hj : k = j
  · subst hj
    simp [Function.comp_def]
  · simp [hj]

/-- A system's run is every decoder's own run, whatever the interleaving (R200). -/
theorem systemRun_eq_mapIdx (schedule : List Nat) (system : List State) :
    systemRun schedule system = .next (system.mapIdx fun k => totalStep^[schedule.count k]) := by
  induction schedule generalizing system with
  | nil =>
    have hid : system.mapIdx (fun k => totalStep^[[].count k]) = system :=
      List.mapIdx_eq_iff.mpr fun _ => Option.map_id_apply.symm
    rw [hid, systemRun]
  | cons k ks ih => simp only [systemRun, systemStep_eq_modify, ih, mapIdx_iterate_modify]

/-- Settles O47: the run of the system (`systemRun_eq_mapIdx`) and the run of the one decoder
(`core_run_eq_iterate_totalStep`) are the same iterate of the total step. -/
theorem decodersAreIndependent : Obligations.DecodersAreIndependent := by
  intro schedule system
  refine ⟨_, systemRun_eq_mapIdx schedule system, List.length_mapIdx, fun k s hk => ?_⟩
  refine ⟨_, core_run_eq_iterate_totalStep _ s, ?_⟩
  rw [List.getElem?_mapIdx, hk]
  rfl

/-! ## Nothing faults and nothing is refused (R190, R191) -/

/-- An outcome that completes is no fault and no refusal. -/
theorem Completes.ne_fault_and_ne_refused {o : Host.Outcome State Fault Refusal} (h : Completes o) :
    (∀ r : Fault, o ≠ .fault r) ∧ ∀ r : Refusal, o ≠ .refused r := by
  obtain ⟨t, rfl⟩ := h
  exact ⟨nofun, nofun⟩

/-- Bits 31:24 are ignored by every format (R63 to R70, R80): words that agree below them agree on the significant bits of
each kind, and so decode to one instruction (O16). -/
theorem decode_of_same_low_bytes {message message' : Word} (timing : Word)
    (h : message &&& 0x00FFFFFF = message' &&& 0x00FFFFFF) :
    decode (.decode message timing) = decode (.decode message' timing) := by
  have hbits : (classify message).significantBits = 0x00FFFFFF &&& (classify message).significantBits := by
    cases classify message <;> rfl
  refine ignoredBitsDoNotMatter message message' timing ?_
  rw [hbits, ← BitVec.and_assoc, h, BitVec.and_assoc]

/-- Two masks can disagree only on whether a message's event is dispatched (R165): which event it would be is read off the
decode result, before the gate. -/
theorem event_with_filter (a : Arch) (message mask : Word) :
    Reference.event { a with filter := mask } message = Reference.event a message ∨
      Reference.event { a with filter := mask } message = none ∨ Reference.event a message = none := by
  have hdec : Reference.decoded { a with filter := mask } message = Reference.decoded a message := rfl
  rw [Reference.event_eq_ite_dispatchesUnder, Reference.event_eq_ite_dispatchesUnder a, hdec]
  cases dispatchesUnder mask (classify message) with
  | false => exact .inr (.inl rfl)
  | true =>
    cases dispatchesUnder a.filter (classify message) with
    | false => exact .inr (.inr rfl)
    | true => exact .inl rfl

/-- Settles O48: that every step completes leaves no fault and no refusal; the three situations are O12, the ignored bits
(`decode_of_same_low_bytes`), and the step of R177 under two masks (`event_with_filter`). -/
theorem noSituationIsAFaultOrARefusal : Obligations.NoSituationIsAFaultOrARefusal := by
  refine ⟨fun s => ?_, fun i s => (exec_completes i s).ne_fault_and_ne_refused, fun message timing s hk => ?_,
    fun _ _ timing => decode_of_same_low_bytes timing, fun message timing mask s => ?_⟩
  · obtain ⟨hfault, hrefused⟩ := (step_completes s).ne_fault_and_ne_refused
    exact ⟨hfault, hrefused, step_eq_next_totalStep s⟩
  · rw [decode_unhandled timing hk]
    exact gives_decoded s .unhandled timing none
  · exact ⟨_, _, exec_decode_eq_step _ s.toArch s.inputs s.out,
      exec_decode_eq_step _ { s.toArch with filter := mask } s.inputs s.out, rfl, rfl, rfl, rfl,
      event_with_filter s.toArch message mask⟩

end Sys2Proof.Machine

namespace Sys2Proof.Machine

open Sys2Proof.Reference (step_eq_pinsStep pinsStep_of_rst)

/-! ## Hardware reset (R210 to R212) -/

/-- Settles O25: on pins the step is `pinsStep`, which looks at `rst` before any command (`pinsStep_of_rst`, decision
D12). -/
theorem hardwareResetOverridesTheCommand : Obligations.HardwareResetOverridesTheCommand := by
  rintro ⟨a, inputs, out⟩ p rest (rfl : inputs = p :: rest) hrst
  rw [step_eq_pinsStep, pinsStep_of_rst a hrst]
  rfl

/-- Settles O39: nothing is driven at reset. -/
theorem resetPortsAreCoherent : Obligations.ResetPortsAreCoherent := portsCoherent_of_silent rfl

end Sys2Proof.Machine

namespace Sys2Proof

/-! ## Numbers that stand for a command (R60) -/

/-- A number whose low `nbits` bits are those of a command decodes as the command. -/
theorem decodeTableWord_of_toBits {nbits w : Nat} {c : Command} (h : w % 2 ^ nbits = c.toBits) :
    decodeTableWord nbits w = some (decode c) := by
  rw [decodeTableWord, h, decodeBits, if_pos c.toBits_lt, c.ofBits_toBits]
  rfl

/-- A number whose low `nbits` bits are those of an instruction's canonical command decodes to the instruction. -/
theorem decodeTableWord_of_encodeBits {nbits w : Nat} {i : Instr} (hwf : i.wellFormed = true)
    (h : w % 2 ^ nbits = encodeBits i) : decodeTableWord nbits w = some i :=
  (decodeTableWord_of_toBits h).trans (congrArg some (decode_encode hwf))

/-- Settles O21: five of the numbers are canonical (R85), so the round trip reads them. Two have bits set that their format
ignores, `PROGRAMCHANGE` bit 15 (R64) and `SONGPOSITION` bits 22:20 (R67): these are read as the instruction of their row of
the opcode map. -/
theorem someWordsDecodeAsTheSpecWritesThem : Obligations.SomeWordsDecodeAsTheSpecWritesThem := by
  have hprogram : decode (.decode 0x000085C7 0) = .programChange 7 5 0 :=
    decode_programChange 0 (classify_of_row (pattern := 0xC0) (mask := 0xF0) (by decide) rfl)
  have hsong : decode (.decode 0x007F7FF2 0) = .songPosition 0xF7F 0 :=
    decode_songPosition 0 (classify_of_row (pattern := 0xF2) (mask := 0xFF) (by decide) rfl)
  refine ⟨?noteOff, ?programChange, ?pitchWheel, ?songPosition, ?reset, ?unhandled, ?setFilters⟩
  case programChange => exact hprogram ▸ decodeTableWord_of_toBits rfl
  case songPosition => exact hsong ▸ decodeTableWord_of_toBits rfl
  case noteOff | pitchWheel | reset | unhandled | setFilters => exact decodeTableWord_of_encodeBits rfl rfl

end Sys2Proof
